-- ==== Sys2Proof/Word.lean ====
section
/-! DEFINITION. The word types of the part: bytes, cycle numbers, channel masks, and the
numberings of channels, bays, directory slots, zones and cues. -/

namespace Sys2Proof

/-- One byte of a frame, a record or the take array. -/
abbrev Byte := BitVec 8

/-- A served cycle number: 0–65,535, wrapping (section 1.1). -/
abbrev CycleNo := BitVec 16

/-- A channel slot 0–11 (section 5.6 of About this manual). -/
abbrev Slot := Fin 12

/-- A motion axis, slots 0–7. -/
abbrev Axis := Fin 8

/-- A lens channel: 0 stands for slot 8 (Focus), 3 for slot 11 (Lens aux). -/
abbrev LensIx := Fin 4

/-- A set of channel slots: bit n stands for slot n (chapter 11). -/
abbrev Mask := BitVec 12

/-- A bay of the take array (section 8.1). -/
abbrev Bay := Fin 512

/-- A slot of the take directory (R146). -/
abbrev DirIx := Fin 64

/-- An entry of the zone table (section 4.4). -/
abbrev ZoneIx := Fin 16

/-- An entry of the cue ring (section 10.1). -/
abbrev CueIx := Fin 16

end Sys2Proof
end

