-- ==== Sys2Proof/Syntax.lean ====
section
/-! DEFINITION. The commands of the part: one constructor of `Instr` per row of
spec/opcode_table.json, with the row's operands as raw fields (R192: a coded field travels as the
number that was sent; its owner judges the range). -/

namespace Sys2Proof

/-- A point in stage coordinates, 0.01 mm (section 5.2). -/
structure Point where
  x : Int
  y : Int
  z : Int
  deriving DecidableEq, Repr

/-- A box in stage coordinates, in the order of the Zone Set body (section 11.3). -/
structure Box where
  xmin : Int
  xmax : Int
  ymin : Int
  ymax : Int
  zmin : Int
  zmax : Int
  deriving DecidableEq, Repr

/-- The 36-byte record of Axis Set for a channel slot (section 11.3). -/
structure AxisFields where
  present : Nat
  kind : Nat
  brakePresent : Nat
  confirm : Nat
  pmin : Int
  pmax : Int
  vmax : Nat
  amax : Nat
  astop : Nat
  following : Nat
  followCount : Nat
  still : Nat
  divergence : Nat
  deriving DecidableEq, Repr

/-- The same 36 bytes for the stop timing record (section 11.3). -/
structure TimingFields where
  stillDwell : Nat
  stillMask : Nat
  brakeMask : Nat
  stillTimeout : Nat
  brakeTimer : Nat
  brakeTimeout : Nat
  armingTimeout : Nat
  deriving DecidableEq, Repr

/-- The record of an Axis Set, read by its target: 12 names the stop timing record. -/
inductive AxisSetRecord where
  | channel (f : AxisFields)
  | timing (f : TimingFields)
  deriving DecidableEq, Repr

/-- The body of Geometry Set (R56). -/
structure GeometryFields where
  lb : Nat
  x0 : Int
  y0 : Int
  z0 : Int
  swing : Int
  lift : Int
  deriving DecidableEq, Repr

/-- The body of Zone Set (R62). -/
structure ZoneFields where
  index : Nat
  state : Nat
  kind : Nat
  response : Nat
  box : Box
  margin : Nat
  scale : Nat
  refresh : Nat
  growth : Nat
  deriving DecidableEq, Repr

/-- One pair of Lens Points: a physical value and a count (R110). -/
structure LensPair where
  phys : Nat
  count : Int
  deriving DecidableEq, Repr

/-- The body of Lens Points. `extra` is how many bytes the total length leaves over after the
last whole pair (R110 step 2). -/
structure LensPointsFields where
  channel : Nat
  start : Nat
  pairs : List LensPair
  extra : Nat
  deriving DecidableEq, Repr

/-- The body of Lens Table Read (R113). -/
structure TableReadFields where
  channel : Nat
  choice : Nat
  start : Nat
  count : Nat
  deriving DecidableEq, Repr

/-- The body of Target Update (R115). -/
structure TargetFields where
  point : Point
  refresh : Nat
  offset : Int
  deriving DecidableEq, Repr

/-- The body of Record Start (R159). -/
structure RecordStartFields where
  slot : Nat
  divisor : Nat
  trigger : Nat
  mask : BitVec 16
  deriving DecidableEq, Repr

/-- The body of Take Import (R154). -/
structure ImportFields where
  slot : Nat
  divisor : Nat
  mask : BitVec 16
  modes : Vector Nat 4
  deriving DecidableEq, Repr

/-- The body of Cue Write (R172), its flags byte taken apart. -/
structure CueFields where
  index : Nat
  give : Bool
  lock : Bool
  recordWith : Bool
  takeEnd : Bool
  slot : Nat
  trigger : Nat
  start : Nat
  endIx : Nat
  speed : Nat
  mask : BitVec 16
  deriving DecidableEq, Repr

/-- The commands. A request of the service lane carries its tag first; a frame carries its bytes;
a cycle frame and a sync edge carry the time base value at which they arrive. -/
inductive Instr where
  -- the ring ports and the cycle timer (chapter 1)
  | cycleFrame (time : Nat) (frame : List Byte)
  | fillCycle
  | driveFrameReturn (frame : List Byte)
  -- records that no owner executes (chapter 2)
  | malformedRecord (kind tag : Byte)
  | unknownRecord (kind tag : Byte)
  -- gateway and mode
  | gatewaySet (tag : Byte) (period missLimit : Nat)
  | mode (tag : Byte) (want : Nat)
  | restart (tag : Byte)
  | reset (eStopOpen guardOpen : Bool)
  -- axes
  | axisSet (tag : Byte) (target : Nat) (record : AxisSetRecord)
  | axisRead (tag : Byte) (target : Nat)
  | sourceLive (tag : Byte) (mask : BitVec 16)
  -- geometry and zones
  | geometrySet (tag : Byte) (body : GeometryFields)
  | zoneSet (tag : Byte) (body : ZoneFields)
  | zoneClear (tag : Byte) (index : Nat)
  | liveZoneUpdate (tag : Byte) (index : Nat) (box : Box)
  | zoneRead (tag : Byte) (index : Nat)
  -- lines and stops
  | eStopOpen
  | eStopClose
  | guardOpen
  | guardClose
  | stop (tag : Byte) (category : Nat)
  | stillTimeout
  | brakeTimer
  | brakeTimeout
  | rearm (tag : Byte) (recover : Nat)
  | releaseTimer
  | armingTimeout
  | continueStop (tag : Byte)
  -- lens channels
  | lensModeSet (tag : Byte) (channel mode : Nat)
  | lensPoints (tag : Byte) (body : LensPointsFields)
  | lensCommit (tag : Byte) (channel count : Nat)
  | lensTableRead (tag : Byte) (body : TableReadFields)
  | targetUpdate (tag : Byte) (body : TargetFields)
  -- camera sync
  | syncEdge (time : Nat)
  | lossTime
  | edgeSynthesis
  | phasePointExpiry
  | syncSet (tag : Byte) (weight preset value : Nat)
  -- the take array
  | pageReadComplete
  | pageProgramComplete
  | bayEraseComplete
  | scanReadComplete
  | directoryRead (tag : Byte) (slot : Nat)
  | takeErase (tag : Byte) (slot : Nat)
  | takeLock (tag : Byte) (slot : Nat)
  | protectionFreeze (tag : Byte)
  | arrayClear (tag : Byte)
  | takeRead (tag : Byte) (slot page : Nat)
  | takeImport (tag : Byte) (body : ImportFields)
  | pageWrite (tag : Byte) (slot : Nat) (page : List Byte)
  | importClose (tag : Byte) (slot : Nat)
  -- the recorder
  | recordStart (tag : Byte) (body : RecordStartFields)
  | recordStop (tag : Byte)
  -- the player and the cue ring
  | cueWrite (tag : Byte) (body : CueFields)
  | cueRead (tag : Byte) (index : Nat)
  | cuePoll (tag : Byte)
  | playerStart (tag : Byte) (interval : Nat)
  | autoPoll
  | go (tag : Byte)
  | resume (tag : Byte)
  | abandon (tag : Byte)
  | playerStop (tag : Byte)
  deriving DecidableEq, Repr

end Sys2Proof
end

