-- ==== Sys2Proof/Decode.lean ====
section
/-! DEFINITION. The command that a word spells. The opcode table of this hardware gives no row any bits
(every row's list of fields is empty), so no word spells a command (log 32). The records and frames
that carry commands are read in Machine/Operands.lean. -/

namespace Sys2Proof

/-- The command that `nbits` bits of a word spell: none, since the table gives no row any bits. -/
def decodeTableWord (_nbits _w : Nat) : Option Instr := none

end Sys2Proof
end

