-- ==== Sys2Proof/Machine/Arith.lean ====
section
/-! DEFINITION. Exact integer arithmetic with the roundings of section 5.3, little-endian fields
(section 5.5) and the two CRCs (R133, R191). -/

namespace Sys2Proof.Machine

/-- clamp(x, lo, hi) (section 5.3). -/
def clamp (x lo hi : Int) : Int := max lo (min x hi)

/-- Division with "round half away from zero" (section 5.3); the divisor is not 0. -/
def divRound (n d : Int) : Int :=
  n.sign * d.sign * (((2 * n.natAbs + d.natAbs) / (2 * d.natAbs) : Nat) : Int)

/-- The count of a fine value (section 5.2): floor((fine + 32,768) / 65,536). -/
def countOf (fine : Int) : Int := (fine + 32768) / 65536

/-- A counter of 8 bits that saturates at 255 (section 5.1). -/
def bump255 (n : Nat) : Nat := min 255 (n + 1)

/-- A counter of 16 bits that saturates at 65,535. -/
def bump65535 (n : Nat) : Nat := min 65535 (n + 1)

/-- An age, saturating at 65,536 (R68, R116). -/
def bumpAge (n : Nat) : Nat := min 65536 (n + 1)

/-- Saturation to the signed 32-bit range (R7). -/
def saturate32 (x : Int) : Int := clamp x (-2147483648) 2147483647

/-- The stage limit 2^28 − 1 (section 5.2). -/
def stageLimit : Int := 268435455

/-- Saturation of a computed coordinate, and the clamp of a given one (section 5.2, R27). -/
def clampCoord (x : Int) : Int := clamp x (-stageLimit) stageLimit

/-- One digit of the square root, from the bit worth 2^bits downward. -/
def isqrtAux (n : Nat) : Nat → Nat → Nat
  | 0, r => r
  | bits + 1, r =>
    let r' := r + 2 ^ bits
    isqrtAux n bits (if r' * r' ≤ n then r' else r)

/-- isqrt(x): the floor of the square root (section 5.3). -/
def isqrt (n : Nat) : Nat := isqrtAux n (n.log2 / 2 + 1) 0

/-! ## Little-endian fields -/

/-- The value of a little-endian run of bytes. -/
def leNat : List Byte → Nat
  | [] => 0
  | b :: bs => b.toNat + 256 * leNat bs

/-- The n low bytes of v, least significant first. -/
def leBytes : Nat → Nat → List Byte
  | 0, _ => []
  | n + 1, v => BitVec.ofNat 8 v :: leBytes n (v / 256)

/-- The n low bytes of the two's complement of v. -/
def leBytesInt (n : Nat) (v : Int) : List Byte := leBytes n (v % (2 : Int) ^ (8 * n)).toNat

/-- The bytes of a record from `at` on, `len` of them. -/
def bytesAt (bs : List Byte) (at' len : Nat) : List Byte := (bs.drop at').take len

/-- An unsigned field. -/
def fieldNat (bs : List Byte) (at' len : Nat) : Nat := leNat (bytesAt bs at' len)

/-- The two's complement reading of a field of n bytes. -/
def asSigned (n v : Nat) : Int := if v < 2 ^ (8 * n - 1) then v else (v : Int) - 2 ^ (8 * n)

/-- A signed field. -/
def fieldInt (bs : List Byte) (at' len : Nat) : Int := asSigned len (fieldNat bs at' len)

/-- The byte at an offset, 0 past the end. -/
def byteAt (bs : List Byte) (at' : Nat) : Byte := bs.getD at' 0

/-- A byte of a Boolean bit field: bit i is the i-th entry. -/
def bitsOf (bits : List Bool) : Nat :=
  bits.foldr (fun b acc => (if b then 1 else 0) + 2 * acc) 0

/-! ## The frame check and the page check -/

/-- Eight steps of the reflected CRC-32 register. -/
def crc32Bits : Nat → BitVec 32 → BitVec 32
  | 0, c => c
  | n + 1, c => crc32Bits n (if c.getLsbD 0 then (c >>> 1) ^^^ 0xEDB88320#32 else c >>> 1)

/-- The CRC-32 of R191: polynomial 0x04C11DB7, least significant bit first, so reflected. -/
def crc32 (bs : List Byte) : BitVec 32 :=
  (bs.foldl (fun c b => crc32Bits 8 (c ^^^ b.setWidth 32)) 0xFFFFFFFF#32) ^^^ 0xFFFFFFFF#32

/-- Eight steps of the CRC-16 register, most significant bit first. -/
def crc16Bits : Nat → BitVec 16 → BitVec 16
  | 0, c => c
  | n + 1, c => crc16Bits n (if c.getLsbD 15 then (c <<< 1) ^^^ 0x1021#16 else c <<< 1)

/-- The CRC-16 of R133: x^16 + x^12 + x^5 + 1, initial 0xFFFF, not reflected, no final XOR. -/
def crc16 (bs : List Byte) : BitVec 16 :=
  bs.foldl (fun c b => crc16Bits 8 (c ^^^ ((b.setWidth 16 : BitVec 16) <<< (8 : Nat)))) 0xFFFF#16

end Sys2Proof.Machine
end

