-- ==== Sys2Proof/Config.lean ====
section
/-! DEFINITION. The values the manual leaves open: each is an opaque constant or function, so that
no proof can lean on a value of it. Every entry names the log row that declares it. -/

namespace Sys2Proof.Config

/-- The byte that an operation cut short by a reset leaves at a place the manual does not fix
(R142, R155; log 11). It is applied to `Part.freeCount`, which the reset advances. -/
opaque freeByte : Nat → Byte

/-- What programming a byte that is not 0xFF with another value gives: chapter 8 states only that it
cannot return to 0xFF (log 12). Arguments: the byte as it stands, the byte programmed. -/
opaque overProgram : Byte → Byte → Byte

/-- The take value, in fine units, of a take that holds no point at all (R182 states none; log 23).
It is applied to `Part.freeCount`. -/
opaque noPointValue : Nat → Int

/-- The end field of a Cue Read reply for an entry whose end is "take end" (section 11.3 gives the
place, no value; log 17). -/
opaque takeEndField : Nat

/-- The set field of an Axis Read reply for the stop timing record (section 11.3; log 17). -/
opaque timingSetByte : Byte

/-- The physical value and the count that a Lens Table Read reports at an index the table does not
use (R113 says "reported as unused"; log 17). -/
opaque unusedPhys : Nat
opaque unusedCount : Int

/-- The point count byte of a Lens Table Read of Staging (R113 gives it for Active only; log 17). -/
opaque stagingCountByte : Byte

/-- The response byte of a Zone Read reply for a Slow entry, and the scale field for a KeepOut or
KeepIn entry (R62 does not read them; log 17). -/
opaque unreadResponseByte : Byte
opaque unreadScale : Nat

/-- The count, in two's complement, that the forward map gives for a physical value through an empty
table (R114 defines none; log 46). -/
opaque emptyForward : Int → BitVec 24

/-- The physical value that the reverse map gives for a count through an empty table (R114 defines
none; log 46). -/
opaque emptyReverse : Int → BitVec 24

end Sys2Proof.Config
end

