-- ==== Sys2Proof/Machine/State.lean ====
section
/-! DEFINITION. The state of the Lirack 612: everything the manual says a block holds, as plain data,
the two reason types, and the state after reset. -/

namespace Sys2Proof.Machine

/-! ## The named values of the manual (codes: section 11.3) -/

/-- The part mode (section 2.5). -/
inductive PartMode where
  | setup | run
  deriving DecidableEq, Repr

/-- The result codes of R26. -/
inductive ResultCode where
  | done | started | badRecord | unknown | wrongMode | wrongState | busy | owned | locked | frozen
  | range | unreachable | blocked | invalid | noSpace | notYet | late
  deriving DecidableEq, Repr

/-- The kind of an axis record (section 3.1). -/
inductive AxisKind where
  | linear | rotary | lens
  deriving DecidableEq, Repr

/-- How an axis's brake is confirmed (R95, R101). -/
inductive ConfirmMode where
  | feedback | timer | either
  deriving DecidableEq, Repr

/-- The sources of a channel (R38). -/
inductive Source where
  | live | take | parked | stop | track
  deriving DecidableEq, Repr

/-- What a motion axis returns to on Continue (R41). -/
inductive ResumeSource where
  | live | parked
  deriving DecidableEq, Repr

/-- The state of a zone entry (section 4.4). -/
inductive ZoneState where
  | unused | static | live
  deriving DecidableEq, Repr

/-- The kind of a zone entry (section 4.4). -/
inductive ZoneKind where
  | keepOut | keepIn | slow
  deriving DecidableEq, Repr

/-- A stop category, which is also a zone's response: Hold < Ramp < Hard (section 5.1). -/
inductive Category where
  | hold | ramp | hard
  deriving DecidableEq, Repr

/-- The stop states (section 5.1). -/
inductive StopState where
  | safeOff | arming | holding | running | ramping | settling | braking
  deriving DecidableEq, Repr

/-- The category in force in Ramping and Settling; none in the other states (section 5.1). -/
inductive InForce where
  | none | hold | ramp
  deriving DecidableEq, Repr

/-- The fifteen cause kinds (section 5.1). -/
inductive CauseKind where
  | eStop | guard | zone | boundary | following | driveFault | driveLink | link | divergence
  | starve | stillTimeout | brakeTimeout | armFail | request | start
  deriving DecidableEq, Repr

/-- The lens modes (section 6.1). -/
inductive LensMode where
  | off | direct | map | follow
  deriving DecidableEq, Repr

/-- The sync states (section 7.3). -/
inductive SyncState where
  | absent | acquiring | locked | freewheel | lost
  deriving DecidableEq, Repr

/-- The state of a directory slot (R146). -/
inductive SlotState where
  | empty | recording | importing | closed | truncated | retiring
  deriving DecidableEq, Repr

/-- The end reason of a take (R146). -/
inductive EndReason where
  | none | requested | stop | mode | full | scan
  deriving DecidableEq, Repr

/-- The recorder states (R158). -/
inductive RecorderState where
  | idle | armed | recording | stalled | closing
  deriving DecidableEq, Repr

/-- What starts the record clock (R160). -/
inductive RecorderTrigger where
  | immediate | frame | cue
  deriving DecidableEq, Repr

/-- The state of a page buffer (R158). -/
inductive BufferState where
  | free | filling | queued
  deriving DecidableEq, Repr

/-- The recorder's two page buffers. -/
inductive BufferId where
  | a | b
  deriving DecidableEq, Repr

/-- The player states (section 10.2). -/
inductive PlayerState where
  | stopped | fetching | suspended | approaching | waiting | playing | halted | closing
  deriving DecidableEq, Repr

/-- Who owns a cue entry (section 10.1). -/
inductive CueOwner where
  | controller | part
  deriving DecidableEq, Repr

/-- What starts a cue's play (section 10.1). -/
inductive CueTrigger where
  | immediate | frame | go
  deriving DecidableEq, Repr

/-- The outcome of a cue (section 10.1). -/
inductive CueStatus where
  | pending | done | aborted | notRun | halted | badTake | modeMismatch | outOfWindow | diverged
  | starved
  deriving DecidableEq, Repr

/-- What was recorded against the current cue (section 10.2). -/
inductive HaltReason where
  | none | diverged | starved
  deriving DecidableEq, Repr

/-! ## The ring gateway (section 1.1) -/

/-- A drive's status as written in its slot: four indications and the brake (section 1.1). -/
structure DriveStatus where
  answered : Bool
  fault : Bool
  ready : Bool
  torqueOn : Bool
  brakeEngaged : Bool
  deriving DecidableEq, Repr

/-- The feedback record of a channel (section 1.1). -/
structure Feedback where
  actual : Int
  status : DriveStatus
  stale : Bool
  deriving DecidableEq, Repr

/-- The demand record of a channel: the last demand and the demand before it (section 1.1). -/
structure Demand where
  last : Int
  before : Int
  deriving DecidableEq, Repr

/-- The outstanding drive frame: its number, setpoints and torque enable flags (section 1.1). -/
structure Outstanding where
  cycle : CycleNo
  setpoints : Vector Int 12
  torque : Vector Bool 12
  deriving DecidableEq, Repr

/-- The ring gateway's state (section 1.1). -/
structure Gateway where
  cycle : CycleNo
  firstFrame : Bool
  period : Nat
  missLimit : Nat
  timer : Option Nat
  servedTime : Nat
  controllerMiss : Nat
  driveMiss : Nat
  lateCount : Nat
  badCount : Nat
  demands : Vector Demand 12
  outstanding : Option Outstanding
  feedback : Vector Feedback 12
  deriving DecidableEq, Repr

/-! ## The service lane unit (section 2.1) -/

/-- The result code of a Ready reply and its data. -/
structure Answer where
  code : ResultCode
  data : List Byte
  deriving DecidableEq, Repr

/-- A reply queue entry. `answer` is `none` while the entry is Waiting. `ticket` is the model's own
name for the entry, by which an array operation finds it (R25). -/
structure ReplyEntry where
  ticket : Nat
  tag : Byte
  kind : Byte
  answer : Option Answer
  deriving DecidableEq, Repr

/-- The service lane unit's state (section 2.1). -/
structure ServiceLane where
  mode : PartMode
  queue : List ReplyEntry
  dropped : Nat
  nextTicket : Nat
  deriving DecidableEq, Repr

/-! ## The envelope shaper (sections 3.1 and 3.2) -/

/-- An axis record (section 3.1). -/
structure AxisRecord where
  present : Bool
  kind : AxisKind
  pmin : Int
  pmax : Int
  vmax : Nat
  amax : Nat
  astop : Nat
  following : Nat
  followCount : Nat
  divergence : Nat
  still : Nat
  brakePresent : Bool
  confirm : ConfirmMode
  set : Bool
  deriving DecidableEq, Repr

/-- The stop timing record (section 3.1). -/
structure StopTiming where
  stillDwell : Nat
  stillMask : Nat
  stillTimeout : Nat
  brakeMask : Nat
  brakeTimer : Nat
  brakeTimeout : Nat
  armingTimeout : Nat
  deriving DecidableEq, Repr

/-- What the shaper holds for a channel (section 3.2). The resume source has meaning on motion axes
only. -/
structure Channel where
  source : Source
  p : Int
  v : Int
  park : Int
  resume : ResumeSource
  rampDecel : Nat
  followRun : Nat
  deriving DecidableEq, Repr

/-- The envelope shaper's state: the axis table, the stop timing record, the channels and the speed
scale in force. -/
structure Shaper where
  axes : Vector AxisRecord 12
  timing : StopTiming
  chans : Vector Channel 12
  sigma : Nat
  deriving DecidableEq, Repr

/-! ## The zone monitor (chapter 4) -/

/-- The geometry constants (section 4.1). -/
structure Geometry where
  lb : Int
  x0 : Int
  y0 : Int
  z0 : Int
  swing : Int
  lift : Int
  deriving DecidableEq, Repr

/-- A zone entry (section 4.4). -/
structure ZoneEntry where
  state : ZoneState
  kind : ZoneKind
  box : Box
  margin : Nat
  response : Category
  scale : Nat
  refresh : Nat
  growth : Nat
  age : Nat
  effective : Box
  deriving DecidableEq, Repr

/-- The zone monitor's state: geometry, the tip record (R61), the zone table and the recovery flag.
The sine table is a constant (R57). -/
structure ZoneMonitor where
  geometry : Geometry
  currentTip : Point
  stopTip : Point
  currentHits : BitVec 16
  stopHits : BitVec 16
  zones : Vector ZoneEntry 16
  recovery : Bool
  deriving DecidableEq, Repr

/-! ## The stop sequencer (section 5.1) -/

/-- The first cause: a kind with its detail. -/
structure FirstCause where
  kind : CauseKind
  detail : Nat
  deriving DecidableEq, Repr

/-- A reference count of R91 with the cycle it was taken from. -/
structure StillReference where
  count : Int
  cycle : CycleNo
  deriving DecidableEq, Repr

/-- What the sequencer holds for a motion axis. `shown` is whether the axis showed ready and torque
on in the last feedback read in Arming (R101 names it for the detail of ArmFail). -/
structure SequencerAxis where
  stillRun : Nat
  reference : Option StillReference
  confirmed : Bool
  shown : Bool
  deriving DecidableEq, Repr

/-- The stop sequencer's state (section 5.1). `releaseServed` counts the served cycles since the
release start (R101). The torque enable and brake release flags are those R83 gives for the stop
state, and are computed (Flags.lean). -/
structure Sequencer where
  state : StopState
  category : InForce
  firstCause : Option FirstCause
  causes : BitVec 16
  chainClosed : Bool
  eStopOpen : Bool
  guardOpen : Bool
  readiness : Bool
  phaseCount : Nat
  phaseStart : CycleNo
  releaseStart : Option CycleNo
  releaseServed : Nat
  axes : Vector SequencerAxis 8
  deriving DecidableEq, Repr

/-! ## The lens mapper (section 6.1) -/

/-- A staging entry (section 6.1). -/
structure StagingEntry where
  phys : Nat
  count : Int
  written : Bool
  deriving DecidableEq, Repr

/-- A lens channel record (section 6.1). A table is its list of points; the empty list is N = 0. -/
structure LensChannel where
  mode : LensMode
  active : List LensPair
  pending : Option (List LensPair)
  staging : Vector StagingEntry 64
  staged : Bool
  lastDemand : Int
  physical : Nat
  deriving DecidableEq, Repr

/-- The target record of the focus channel (section 6.1). -/
structure Target where
  present : Bool
  point : Point
  refresh : Nat
  offset : Int
  age : Nat
  stale : Bool
  deriving DecidableEq, Repr

/-- The lens mapper's state. -/
structure LensMapper where
  chans : Vector LensChannel 4
  target : Target
  deriving DecidableEq, Repr

/-! ## The sync unit (section 7.1) -/

/-- The sync unit's state (section 7.1). -/
structure SyncUnit where
  state : SyncState
  reference : Option Nat
  zn : Nat
  zprev : Nat
  zavg : Nat
  agreement : Nat
  lossTime : Option Nat
  nextSynth : Option Nat
  freewheel : Nat
  weight : Nat
  phasePoint : Option Nat
  frameCount : BitVec 32
  deriving DecidableEq, Repr

/-! ## The take array controller (chapter 8) -/

/-- A take header (R133), less the slot and the chain index, which stand beside it where it is
used. -/
structure TakeInfo where
  serial : BitVec 32
  mask : Mask
  divisor : Nat
  modes : Vector LensMode 4
  startFrame : BitVec 32
  deriving DecidableEq, Repr

/-- The take header as it stands in a header page (R133). -/
structure TakeHeader where
  slot : DirIx
  chain : Nat
  info : TakeInfo
  deriving DecidableEq, Repr

/-- A directory slot (R146). `sampleSeen` says whether an accepted page of an import has held a
Sample (the model's own memory of what R155 step 4 asks). -/
structure DirectorySlot where
  state : SlotState
  info : TakeInfo
  bays : List Bay
  dataPages : Nat
  samples : Nat
  marks : Nat
  gaps : Nat
  locked : Bool
  lockPending : Bool
  endReason : EndReason
  nextPage : Nat
  endAccepted : Bool
  sampleSeen : Bool
  deriving DecidableEq, Repr

/-- A waiting request of the player, the recorder or the service lane (R138), with what its
completion needs. -/
inductive Job where
  /-- a page read of the player: slot and data page index -/
  | playerRead (slot : DirIx) (page : Nat)
  /-- a header program of the recorder -/
  | recorderHeader (bay : Bay) (header : TakeHeader)
  /-- a data page program of the recorder, from the named buffer -/
  | recorderData (slot : DirIx) (page : Nat) (buffer : BufferId) (entries : List Byte)
  /-- the page read of a Take Read, with its reply's ticket -/
  | takeRead (ticket : Nat) (slot : DirIx) (page : Nat)
  /-- a header program of a Page Write -/
  | writeHeader (bay : Bay) (header : TakeHeader)
  /-- the data page program of a Page Write, with its reply's ticket -/
  | writeData (ticket : Nat) (slot : DirIx) (page : Nat) (entries : List Byte)
  /-- the lock byte program of a Take Lock -/
  | lock (ticket : Nat) (slot : DirIx) (bay : Bay)
  /-- a retire byte program of a Take Erase (R149) -/
  | retire (slot : DirIx) (bay : Bay)
  /-- a retire byte program of an Array Clear (R152) -/
  | clearRetire (slot : DirIx) (bay : Bay)
  deriving DecidableEq, Repr

/-- The array operation in progress (R138). `withdrawn` marks a read of the player whose data is to
be discarded (R185). -/
inductive Operation where
  | job (j : Job) (withdrawn : Bool)
  | erase (bay : Bay)
  deriving DecidableEq, Repr

/-- A bay that the scan classed Owned (R142), with its header and whether its lock byte is set. -/
structure ScannedBay where
  bay : Bay
  header : TakeHeader
  lockSet : Bool
  deriving DecidableEq, Repr

/-- Where the start-up scan stands (R142 to R144): reading the header page of a bay, or the data
pages of the take in a slot, with the slots still to read after it. -/
inductive ScanPhase where
  | headers (next : Nat)
  | pages (slot : DirIx) (page : Nat) (lastHasEnd : Bool) (rest : List DirIx)
  deriving DecidableEq, Repr

/-- What the scan has found so far. -/
structure Scan where
  phase : ScanPhase
  erased : List Bay
  owned : List ScannedBay
  maxSerial : Option (BitVec 32)
  deriving DecidableEq, Repr

/-- The bytes of the take array: cells (address, byte), addresses strictly rising, no cell at 0xFF,
which is what an unlisted address reads as (chapter 8: an erased byte reads 0xFF). -/
structure ArrayMemory where
  cells : List Host.Cell
  deriving DecidableEq, Repr

/-- The take array controller's state (chapter 8). `scan` is `none` when no scan runs. -/
structure TakeArray where
  memory : ArrayMemory
  operation : Option Operation
  suspended : Option Bay
  playerJobs : List Job
  recorderJobs : List Job
  laneJobs : List Job
  erased : List Bay
  dirty : List Bay
  directory : Vector DirectorySlot 64
  serial : BitVec 32
  freeze : Bool
  clearing : Bool
  scanComplete : Bool
  scan : Option Scan
  deriving DecidableEq, Repr

/-! ## The recorder (section 9.1) -/

/-- A page buffer: its state, the data page it holds and up to 254 bytes of entries. -/
structure PageBuffer where
  state : BufferState
  page : Option Nat
  entries : List Byte
  deriving DecidableEq, Repr

/-- The recorder's state (section 9.1). `frameSeen` is whether the mark of a Frame trigger has come
(R160); `closeReason` is the end reason the take gets when its closing completes (R168). -/
structure Recorder where
  state : RecorderState
  slot : Option DirIx
  trigger : RecorderTrigger
  frameSeen : Bool
  clock : Nat
  previous : List Int
  whole : Bool
  pendingHold : Nat
  bufferA : PageBuffer
  bufferB : PageBuffer
  nextPage : Nat
  reserved : Option Bay
  stallCount : Nat
  missed : Nat
  overflow : Bool
  closeReason : EndReason
  deriving DecidableEq, Repr

/-! ## The player and the cue ring (chapter 10) -/

/-- A cue entry (section 10.1). `endIx` is `none` for "take end". -/
structure Cue where
  owner : CueOwner
  slot : DirIx
  start : Nat
  endIx : Option Nat
  speed : Nat
  mask : Mask
  trigger : CueTrigger
  lock : Bool
  recordWith : Bool
  status : CueStatus
  startFrame : BitVec 32
  deriving DecidableEq, Repr

/-- A page of the prefetch: its data page index, whether it can be read (R179), and its entry
bytes. -/
structure PrefetchPage where
  page : Nat
  readable : Bool
  entries : List Byte
  deriving DecidableEq, Repr

/-- Where the entries of the first prefetched page stand in the take: the sample index it starts at,
the values a Hold there repeats, and the positions of the Mark entries on the pages before it
(the model's own; R176, R182 and R184 count through those pages). -/
structure TakeContext where
  index : Nat
  values : Option (List Int)
  marks : List Nat
  deriving DecidableEq, Repr

/-- The player's state (section 10.2). `firstStep` says that the next step is the first in Playing,
`entryTau` is the position at which Playing was entered (R184), `resumed` that the approach was
entered by Resume (R186). -/
structure Player where
  state : PlayerState
  pointer : CueIx
  cues : Vector Cue 16
  autoInterval : Nat
  autoCount : Nat
  played : Mask
  tauStart : Nat
  tauEnd : Nat
  tau : Nat
  delta : Nat
  correction : Int
  lockGivenUp : Bool
  liveMark : Nat
  tauHalt : Nat
  held : Vector (Option Int) 12
  haltReason : HaltReason
  goLatch : Bool
  prefetch : List PrefetchPage
  context : TakeContext
  firstStep : Bool
  entryTau : Nat
  resumed : Bool
  deriving DecidableEq, Repr

/-! ## What leaves the ports -/

/-- A channel slot of a drive frame as the part fills it (section 11.1). -/
structure DriveSlot where
  setpoint : Int
  torque : Bool
  release : Bool
  deriving DecidableEq, Repr

/-- A drive frame as emitted out of port B (R10). -/
structure DriveFrame where
  cycle : CycleNo
  slots : Vector DriveSlot 12
  deriving DecidableEq, Repr

/-- The status block (section 11.2), field by field. -/
structure StatusBlock where
  mode : PartMode
  stopState : StopState
  firstCause : Option FirstCause
  causes : BitVec 16
  sources : Vector Source 12
  sigma : Nat
  currentHits : BitVec 16
  stopHits : BitVec 16
  recorder : RecorderState
  recordingSlot : Option DirIx
  missed : Nat
  player : PlayerState
  pointer : CueIx
  owners : BitVec 16
  sync : SyncState
  lensFlags : BitVec 8
  frameCount : BitVec 32
  depth : Nat
  lateCount : Nat
  badCount : Nat
  dropped : Nat
  generalFlags : BitVec 8
  arrayState : BitVec 8
  dirtyLength : Nat
  erasedLength : Nat
  deriving DecidableEq, Repr

/-- A reply as it leaves port A (section 11.3). -/
structure SentReply where
  tag : Byte
  kind : Byte
  answer : Answer
  deriving DecidableEq, Repr

/-- A return frame as emitted out of port A (R15). -/
structure ReturnFrame where
  cycle : CycleNo
  stale : Vector Bool 12
  values : Vector Int 12
  status : StatusBlock
  replies : List SentReply
  deriving DecidableEq, Repr

/-! ## The whole part -/

/-- The part: its ten blocks, the 1 MHz time base, the frames that have left its two ports (oldest
first), and the counter from which fresh free values are drawn (log 11). -/
structure Part where
  now : Nat
  gateway : Gateway
  lane : ServiceLane
  shaper : Shaper
  zone : ZoneMonitor
  seq : Sequencer
  lens : LensMapper
  sync : SyncUnit
  array : TakeArray
  recorder : Recorder
  player : Player
  portA : List ReturnFrame
  portB : List DriveFrame
  freeCount : Nat
  deriving DecidableEq, Repr

/-- The machine: the part and the commands that wait for it, first in, first out. -/
structure State where
  part : Part
  pending : List Instr
  deriving DecidableEq, Repr

/-! ## The reasons a step can stop -/

/-- There is no fault: the manual gives every command of the table an effect or a result code, and
names no event that stops the part (safe: nothing is hidden behind a fault). -/
inductive Fault where
  deriving DecidableEq, Repr

/-- Why a command is refused. -/
inductive Refusal where
  /-- Raised by an arm of `exec` for a command that has no meaning in the model, by its mnemonic; no
  arm raises it (safe: a run stops there). -/
  | notModelled (mnemonic : String)
  deriving DecidableEq, Repr

/-! ## The state after reset -/

/-- R55: the kind of each slot's axis record after reset. -/
def AxisKind.afterReset (s : Slot) : AxisKind :=
  if s.val ≥ 8 then .lens
  else if s.val = 0 ∨ s.val = 3 ∨ s.val = 7 then .linear
  else .rotary

/-- R55: the axis record of a slot after reset. -/
def AxisRecord.reset (s : Slot) : AxisRecord :=
  { present := false, kind := AxisKind.afterReset s, pmin := -1, pmax := 1, vmax := 1, amax := 1,
    astop := 1, following := 0, followCount := 1, divergence := 0, still := 0,
    brakePresent := false, confirm := .feedback, set := false }

/-- R55 and section 3.1: the stop timing record after reset. -/
def StopTiming.reset : StopTiming :=
  { stillDwell := 8, stillMask := 4, stillTimeout := 3000, brakeMask := 10, brakeTimer := 250,
    brakeTimeout := 2000, armingTimeout := 4000 }

/-- R55: a channel of the shaper after reset. -/
def Channel.reset : Channel :=
  { source := .track, p := 0, v := 0, park := 0, resume := .parked, rampDecel := 1, followRun := 0 }

/-- R55. -/
def Shaper.reset : Shaper :=
  { axes := Vector.ofFn AxisRecord.reset, timing := StopTiming.reset,
    chans := Vector.replicate 12 Channel.reset, sigma := 4096 }

/-- R12 and R18: the drive status of a slot that does not answer, and of every slot after reset. -/
def DriveStatus.silent : DriveStatus :=
  { answered := false, fault := false, ready := false, torqueOn := false, brakeEngaged := true }

/-- R18. -/
def Feedback.reset : Feedback := { actual := 0, status := DriveStatus.silent, stale := true }

/-- R18. -/
def Gateway.reset : Gateway :=
  { cycle := 0, firstFrame := true, period := 1000, missLimit := 3, timer := none, servedTime := 0,
    controllerMiss := 0, driveMiss := 0, lateCount := 0, badCount := 0,
    demands := Vector.replicate 12 ⟨0, 0⟩, outstanding := none,
    feedback := Vector.replicate 12 Feedback.reset }

/-- R33. -/
def ServiceLane.reset : ServiceLane := { mode := .setup, queue := [], dropped := 0, nextTicket := 0 }

/-- The origin of the stage. -/
def Point.origin : Point := ⟨0, 0, 0⟩

/-- The box with all coordinates 0. -/
def Box.zero : Box := ⟨0, 0, 0, 0, 0, 0⟩

/-- R79: a zone entry after reset. -/
def ZoneEntry.reset : ZoneEntry :=
  { state := .unused, kind := .keepOut, box := Box.zero, margin := 0, response := .hold,
    scale := 4095, refresh := 1, growth := 0, age := 0, effective := Box.zero }

/-- R79. -/
def ZoneMonitor.reset : ZoneMonitor :=
  { geometry := ⟨0, 0, 0, 0, 0, 0⟩, currentTip := Point.origin, stopTip := Point.origin,
    currentHits := 0, stopHits := 0, zones := Vector.replicate 16 ZoneEntry.reset,
    recovery := false }

/-- R105: still run 0, reference none, not confirmed. -/
def SequencerAxis.reset : SequencerAxis :=
  { stillRun := 0, reference := none, confirmed := false, shown := false }

/-- R105: the first cause is Start, the cause set is {Start} (bit 14); the lines are read as they
stand. -/
def Sequencer.reset (eStopOpen guardOpen : Bool) : Sequencer :=
  { state := .safeOff, category := .none, firstCause := some ⟨.start, 0⟩, causes := 0x4000,
    chainClosed := false, eStopOpen := eStopOpen, guardOpen := guardOpen, readiness := false,
    phaseCount := 0, phaseStart := 0, releaseStart := none, releaseServed := 0,
    axes := Vector.replicate 8 SequencerAxis.reset }

/-- R121. -/
def StagingEntry.reset : StagingEntry := { phys := 0, count := 0, written := false }

/-- R121. -/
def LensChannel.reset : LensChannel :=
  { mode := .off, active := [], pending := none, staging := Vector.replicate 64 StagingEntry.reset,
    staged := false, lastDemand := 0, physical := 0 }

/-- R121: the target is absent and stale. -/
def LensMapper.reset : LensMapper :=
  { chans := Vector.replicate 4 LensChannel.reset,
    target := { present := false, point := Point.origin, refresh := 1, offset := 0, age := 0,
                stale := true } }

/-- R132. -/
def SyncUnit.reset : SyncUnit :=
  { state := .absent, reference := none, zn := 0, zprev := 0, zavg := 0, agreement := 0,
    lossTime := none, nextSynth := none, freewheel := 0, weight := 0, phasePoint := none,
    frameCount := 0 }

/-- R157: serial 0, mask empty, divisor 1, lens modes Off, start frame 0. -/
def TakeInfo.reset : TakeInfo :=
  { serial := 0, mask := 0, divisor := 1, modes := Vector.replicate 4 LensMode.off,
    startFrame := 0 }

/-- R157. -/
def DirectorySlot.reset : DirectorySlot :=
  { state := .empty, info := TakeInfo.reset, bays := [], dataPages := 0, samples := 0, marks := 0,
    gaps := 0, locked := false, lockPending := false, endReason := .none, nextPage := 0,
    endAccepted := false, sampleSeen := false }

/-- R142: the scan begins at bay 0. -/
def Scan.begin : Scan := { phase := .headers 0, erased := [], owned := [], maxSerial := none }

/-- R157: everything but the array's bytes, which the array keeps. -/
def TakeArray.reset (memory : ArrayMemory) : TakeArray :=
  { memory := memory, operation := none, suspended := none, playerJobs := [], recorderJobs := [],
    laneJobs := [], erased := [], dirty := [], directory := Vector.replicate 64 DirectorySlot.reset,
    serial := 0, freeze := false, clearing := false, scanComplete := false,
    scan := some Scan.begin }

/-- R171: a buffer after reset. -/
def PageBuffer.empty : PageBuffer := { state := .free, page := none, entries := [] }

/-- R171. -/
def Recorder.reset : Recorder :=
  { state := .idle, slot := none, trigger := .immediate, frameSeen := false, clock := 0,
    previous := List.replicate 12 0, whole := true, pendingHold := 0, bufferA := PageBuffer.empty,
    bufferB := PageBuffer.empty, nextPage := 0, reserved := none, stallCount := 0, missed := 0,
    overflow := false, closeReason := .none }

/-- R190: a cue entry after reset. -/
def Cue.reset : Cue :=
  { owner := .controller, slot := 0, start := 0, endIx := none, speed := 4096, mask := 0,
    trigger := .immediate, lock := false, recordWith := false, status := .notRun, startFrame := 0 }

/-- The context of a take's first page. -/
def TakeContext.begin : TakeContext := { index := 0, values := none, marks := [] }

/-- R190. -/
def Player.reset : Player :=
  { state := .stopped, pointer := 0, cues := Vector.replicate 16 Cue.reset, autoInterval := 0,
    autoCount := 0, played := 0, tauStart := 0, tauEnd := 0, tau := 0, delta := 0, correction := 0,
    lockGivenUp := false, liveMark := 0, tauHalt := 0, held := Vector.replicate 12 none,
    haltReason := .none, goLatch := false, prefetch := [], context := TakeContext.begin,
    firstStep := false, entryTau := 0, resumed := false }

/-- The part right after power-up: every block at its reset values (R18, R33, R55, R79, R105, R121,
R132, R157, R171, R190), the array as log 10 says, the time base at 0 (log 4), both lines closed
(log 9). -/
def Part.reset : Part :=
  { now := 0, gateway := Gateway.reset, lane := ServiceLane.reset, shaper := Shaper.reset,
    zone := ZoneMonitor.reset, seq := Sequencer.reset false false, lens := LensMapper.reset,
    sync := SyncUnit.reset, array := TakeArray.reset ⟨[]⟩, recorder := Recorder.reset,
    player := Player.reset, portA := [], portB := [], freeCount := 0 }

/-- The machine right after reset, with no command waiting. -/
def State.reset : State := { part := Part.reset, pending := [] }

end Sys2Proof.Machine
end

