-- ==== Sys2Proof/Machine/Ops.lean ====
section
/-! DEFINITION. The named operations over the take array's bytes, the reply queue, channel masks and
the directory that the blocks share. -/

namespace Sys2Proof.Machine

/-! ## The bytes of the take array (section 8.1) -/

/-- What an address that no cell lists reads as: an erased byte. -/
def erasedByte : Byte := 0xFF#8

/-- The byte at an address. -/
def lookupCell : List Host.Cell → Nat → Byte
  | [], _ => erasedByte
  | (a, b) :: rest, x => if a = x then b else lookupCell rest x

/-- The cells with the byte at an address replaced, in canonical form. -/
def putCell : List Host.Cell → Nat → Byte → List Host.Cell
  | [], x, b => if b = erasedByte then [] else [(x, b)]
  | (a, c) :: rest, x, b =>
    if x < a then (if b = erasedByte then (a, c) :: rest else (x, b) :: (a, c) :: rest)
    else if x = a then (if b = erasedByte then rest else (x, b) :: rest)
    else (a, c) :: putCell rest x b

/-- Every listed address lies above `low`, addresses rise strictly, and no cell holds 0xFF. -/
def cellsAbove : Nat → List Host.Cell → Bool
  | _, [] => true
  | low, (a, b) :: rest => decide (low ≤ a) && decide (b ≠ erasedByte) && cellsAbove (a + 1) rest

/-- The size of the array: 512 bays of 64 KiB (chapter 8). -/
def arraySize : Nat := 33554432

/-- The canonical form of the array's memory: rising addresses inside the array, no cell at 0xFF. -/
def ArrayMemory.wf (m : ArrayMemory) : Bool :=
  cellsAbove 0 m.cells && m.cells.all fun c => decide (c.1 < arraySize)

/-- Reading one byte. -/
def ArrayMemory.read (m : ArrayMemory) (a : Nat) : Byte := lookupCell m.cells a

/-- Replacing one byte, whatever it was. -/
def ArrayMemory.put (m : ArrayMemory) (a : Nat) (b : Byte) : ArrayMemory := ⟨putCell m.cells a b⟩

/-- What a byte holds after it is programmed (chapter 8): 0xFF leaves it, an erased byte takes the
value, and a byte that is already programmed takes a value the manual does not give, never 0xFF. -/
def programmedByte (old new : Byte) : Byte :=
  if new = erasedByte then old
  else if old = erasedByte then new
  else if old = new then old
  else if Config.overProgram old new = erasedByte then old
  else Config.overProgram old new

/-- Programming one byte. -/
def ArrayMemory.programByte (m : ArrayMemory) (a : Nat) (b : Byte) : ArrayMemory :=
  m.put a (programmedByte (m.read a) b)

/-- Programming a run of bytes from an address on. -/
def ArrayMemory.program (m : ArrayMemory) : Nat → List Byte → ArrayMemory
  | _, [] => m
  | a, b :: bs => (m.programByte a b).program (a + 1) bs

/-- Replacing a run of bytes, whatever they were (an operation cut short, log 11). -/
def ArrayMemory.putBytes (m : ArrayMemory) : Nat → List Byte → ArrayMemory
  | _, [] => m
  | a, b :: bs => (m.put a b).putBytes (a + 1) bs

/-- Erasing the bytes from `lo` up to but not including `hi`. -/
def ArrayMemory.eraseRange (m : ArrayMemory) (lo hi : Nat) : ArrayMemory :=
  ⟨m.cells.filter fun c => decide (c.1 < lo) || decide (hi ≤ c.1)⟩

/-- The first address of a page of a bay: bays of 256 pages of 256 bytes (section 8.1). -/
def pageAddress (bay : Bay) (page : Nat) : Nat := bay.val * 65536 + page * 256

/-- The 256 bytes of a page. -/
def ArrayMemory.readPage (m : ArrayMemory) (bay : Bay) (page : Nat) : List Byte :=
  (List.range 256).map fun i => m.read (pageAddress bay page + i)

/-- A whole bay erased, its erase marker programmed (R141). -/
def ArrayMemory.eraseBay (m : ArrayMemory) (bay : Bay) : ArrayMemory :=
  (m.eraseRange (pageAddress bay 0) (pageAddress bay 0 + 65536)).put (pageAddress bay 0) 0xA5#8

/-! ## Channel masks -/

/-- A channel mask names a slot. -/
def Mask.has (m : Mask) (s : Slot) : Bool := m.getLsbD s.val

/-- The slots a mask names, in ascending order. -/
def Mask.slots (m : Mask) : List Slot := (List.finRange 12).filter fun s => m.getLsbD s.val

/-- How many slots a mask names. -/
def Mask.size (m : Mask) : Nat := (Mask.slots m).length

/-- The mask of a request's 16-bit field, or none when a bit 12–15 names a slot that does not exist
(R192). -/
def maskOfField (m : BitVec 16) : Option Mask :=
  if m.toNat < 4096 then some (m.setWidth 12) else none

/-- All channel slots, ascending. -/
def allSlots : List Slot := List.finRange 12

/-- All motion axes, ascending. -/
def allAxes : List Axis := List.finRange 8

/-- The channel slot of a motion axis. -/
def Axis.slot (a : Axis) : Slot := ⟨a.val, by omega⟩

/-- The channel slot of a lens channel. -/
def LensIx.slot (l : LensIx) : Slot := ⟨l.val + 8, by omega⟩

/-- The lens channel of a slot, for slots 8–11. -/
def lensOf (s : Slot) : Option LensIx :=
  if h : 8 ≤ s.val then some ⟨s.val - 8, by omega⟩ else none

/-- A slot is a motion axis. -/
def isMotion (s : Slot) : Bool := decide (s.val < 8)

/-- The channel is present (section 3.1). -/
def Shaper.present (sh : Shaper) (s : Slot) : Bool := sh.axes[s].present

/-- The present motion axes, in ascending slot order. -/
def Shaper.motion (sh : Shaper) : List Axis := allAxes.filter fun a => sh.axes[Axis.slot a].present

/-- Every channel changed by a function of its slot and its state. -/
def Shaper.mapChans (sh : Shaper) (f : Slot → Channel → Channel) : Shaper :=
  { sh with chans := Vector.ofFn fun s => f s sh.chans[s] }

/-- One channel changed. -/
def Shaper.setChan (sh : Shaper) (s : Slot) (c : Channel) : Shaper :=
  { sh with chans := sh.chans.set s c }

/-! ## The reply queue (R23 to R25) -/

/-- The queue holds 32 entries (section 2.1). -/
def queueLimit : Nat := 32

/-- R23: an entry at the tail, Waiting. -/
def ServiceLane.reserve (l : ServiceLane) (kind tag : Byte) : ServiceLane :=
  { l with queue := l.queue ++ [⟨l.nextTicket, tag, kind, none⟩], nextTicket := l.nextTicket + 1 }

/-- R24: a request that finds the queue full. -/
def ServiceLane.drop (l : ServiceLane) : ServiceLane := { l with dropped := bump255 l.dropped }

/-- An entry with its answer given, if it is the one named and is Waiting. -/
def ReplyEntry.give (e : ReplyEntry) (ticket : Nat) (a : Answer) : ReplyEntry :=
  if e.ticket = ticket ∧ e.answer = none then { e with answer := some a } else e

/-- R23, R25: the entry of a ticket becomes Ready where it stands. -/
def ServiceLane.answer (l : ServiceLane) (ticket : Nat) (a : Answer) : ServiceLane :=
  { l with queue := l.queue.map fun e => e.give ticket a }

/-- The same over the part. -/
def Part.answer (s : Part) (ticket : Nat) (code : ResultCode) (data : List Byte) : Part :=
  { s with lane := s.lane.answer ticket ⟨code, data⟩ }

/-- What a request gives back: the part, and its answer unless the reply stays Waiting. -/
abbrev Served := Part × Option Answer

/-- A refusal: no effect, no data (R26). -/
def refuse (s : Part) (code : ResultCode) : Served := (s, some ⟨code, []⟩)

/-- An accepted request answered Done without data. -/
def done (s : Part) : Served := (s, some ⟨.done, []⟩)

/-- An accepted request answered Done with data. -/
def doneWith (s : Part) (data : List Byte) : Served := (s, some ⟨.done, data⟩)

/-- An accepted request answered Started. -/
def started (s : Part) : Served := (s, some ⟨.started, []⟩)

/-- R22 to R24: a request read from a served lane. It reserves its reply, is executed, and its entry
becomes Ready unless its answer is still to come; with the queue full it is dropped. -/
def serveRequest (kind tag : Byte) (run : Nat → Part → Served) (s : Part) : Part :=
  if s.lane.queue.length ≥ queueLimit then { s with lane := s.lane.drop }
  else
    let ticket := s.lane.nextTicket
    match run ticket { s with lane := s.lane.reserve kind tag } with
    | (t, none) => t
    | (t, some a) => t.answer ticket a.code a.data

/-! ## The directory -/

/-- A directory slot named by a field, when it lies in 0–63. -/
def dirIxOf (n : Nat) : Option DirIx := if h : n < 64 then some ⟨n, h⟩ else none

/-- One directory slot replaced. -/
def TakeArray.setSlot (t : TakeArray) (i : DirIx) (d : DirectorySlot) : TakeArray :=
  { t with directory := t.directory.set i d }

/-- R134: where a data page index of a slot's take lies: its bay, and the page in it. -/
def DirectorySlot.locate (d : DirectorySlot) (page : Nat) : Option (Bay × Nat) :=
  (d.bays[page / 255]?).map fun b => (b, 1 + page % 255)

/-- R136: the head of the erased queue is claimed for a slot, as its next chain index. -/
def TakeArray.claim (t : TakeArray) (i : DirIx) : Option (Bay × TakeArray) :=
  match t.erased with
  | [] => none
  | b :: rest =>
    let d := t.directory[i]
    some (b, { t with erased := rest, directory := t.directory.set i { d with bays := d.bays ++ [b] } })

/-- R146: a serial is available while the counter is below all ones. -/
def TakeArray.serialAvailable (t : TakeArray) : Bool := decide (t.serial.toNat < 4294967295)

/-- The scan is running: requests that touch the array are Busy (R145). -/
def TakeArray.scanning (t : TakeArray) : Bool := !t.scanComplete

end Sys2Proof.Machine
end

