-- ==== Sys2Proof/Machine/Formats.lean ====
section
/-! DEFINITION. The codes and byte layouts of chapter 11: frames out, the status block, reply data
and take array pages. -/

namespace Sys2Proof.Machine

/-! ## Codes (section 11.3) -/

def ResultCode.code : ResultCode → Nat
  | .done => 0 | .started => 1 | .badRecord => 2 | .unknown => 3 | .wrongMode => 4
  | .wrongState => 5 | .busy => 6 | .owned => 7 | .locked => 8 | .frozen => 9 | .range => 10
  | .unreachable => 11 | .blocked => 12 | .invalid => 13 | .noSpace => 14 | .notYet => 15
  | .late => 16

def PartMode.code : PartMode → Nat
  | .setup => 0 | .run => 1

def PartMode.ofCode : Nat → Option PartMode
  | 0 => some .setup | 1 => some .run | _ => none

def StopState.code : StopState → Nat
  | .safeOff => 0 | .arming => 1 | .holding => 2 | .running => 3 | .ramping => 4 | .settling => 5
  | .braking => 6

def Category.code : Category → Nat
  | .hold => 0 | .ramp => 1 | .hard => 2

def Category.ofCode : Nat → Option Category
  | 0 => some .hold | 1 => some .ramp | 2 => some .hard | _ => none

/-- The bit of a cause kind in the cause set. -/
def CauseKind.bit : CauseKind → Nat
  | .eStop => 0 | .guard => 1 | .zone => 2 | .boundary => 3 | .following => 4 | .driveFault => 5
  | .driveLink => 6 | .link => 7 | .divergence => 8 | .starve => 9 | .stillTimeout => 10
  | .brakeTimeout => 11 | .armFail => 12 | .request => 13 | .start => 14

def Source.code : Source → Nat
  | .live => 0 | .take => 1 | .parked => 2 | .stop => 3 | .track => 4

def AxisKind.code : AxisKind → Nat
  | .linear => 0 | .rotary => 1 | .lens => 2

def AxisKind.ofCode : Nat → Option AxisKind
  | 0 => some .linear | 1 => some .rotary | 2 => some .lens | _ => none

def ConfirmMode.code : ConfirmMode → Nat
  | .feedback => 0 | .timer => 1 | .either => 2

def ConfirmMode.ofCode : Nat → Option ConfirmMode
  | 0 => some .feedback | 1 => some .timer | 2 => some .either | _ => none

def ZoneState.code : ZoneState → Nat
  | .unused => 0 | .static => 1 | .live => 2

def ZoneState.ofCode : Nat → Option ZoneState
  | 0 => some .unused | 1 => some .static | 2 => some .live | _ => none

def ZoneKind.code : ZoneKind → Nat
  | .keepOut => 0 | .keepIn => 1 | .slow => 2

def ZoneKind.ofCode : Nat → Option ZoneKind
  | 0 => some .keepOut | 1 => some .keepIn | 2 => some .slow | _ => none

def LensMode.code : LensMode → Nat
  | .off => 0 | .direct => 1 | .map => 2 | .follow => 3

def LensMode.ofCode : Nat → Option LensMode
  | 0 => some .off | 1 => some .direct | 2 => some .map | 3 => some .follow | _ => none

def SyncState.code : SyncState → Nat
  | .absent => 0 | .acquiring => 1 | .locked => 2 | .freewheel => 3 | .lost => 4

def RecorderState.code : RecorderState → Nat
  | .idle => 0 | .armed => 1 | .recording => 2 | .stalled => 3 | .closing => 4

def RecorderTrigger.ofCode : Nat → Option RecorderTrigger
  | 0 => some .immediate | 1 => some .frame | 2 => some .cue | _ => none

def PlayerState.code : PlayerState → Nat
  | .stopped => 0 | .fetching => 1 | .suspended => 2 | .approaching => 3 | .waiting => 4
  | .playing => 5 | .halted => 6 | .closing => 7

def CueTrigger.code : CueTrigger → Nat
  | .immediate => 0 | .frame => 1 | .go => 2

def CueTrigger.ofCode : Nat → Option CueTrigger
  | 0 => some .immediate | 1 => some .frame | 2 => some .go | _ => none

def CueStatus.code : CueStatus → Nat
  | .pending => 0 | .done => 1 | .aborted => 2 | .notRun => 3 | .halted => 4 | .badTake => 5
  | .modeMismatch => 6 | .outOfWindow => 7 | .diverged => 8 | .starved => 9

def SlotState.code : SlotState → Nat
  | .empty => 0 | .recording => 1 | .importing => 2 | .closed => 3 | .truncated => 4
  | .retiring => 5

def EndReason.code : EndReason → Nat
  | .none => 0 | .requested => 1 | .stop => 2 | .mode => 3 | .full => 4 | .scan => 5

/-- Yes or no in a byte (section 11.3, Rearm: 0 no, 1 yes; log 28). -/
def flagOfCode : Nat → Option Bool
  | 0 => some false | 1 => some true | _ => none

/-- One byte from a number. -/
def byteOf (n : Nat) : Byte := BitVec.ofNat 8 n

/-- n spare bytes: sent as 0 (R192). -/
def spare (n : Nat) : List Byte := List.replicate n 0#8

/-- Yes or no as it is sent. -/
def flagByte (b : Bool) : Byte := if b then 1#8 else 0#8

/-! ## Request kinds (section 11.3) -/

/-- The request kinds of the catalogue with their minimum total lengths. -/
def requestKinds : List (Nat × Nat) :=
  [(0x01, 7), (0x02, 5), (0x03, 4), (0x10, 44), (0x11, 5), (0x12, 6), (0x20, 28), (0x21, 44),
   (0x22, 5), (0x23, 32), (0x24, 5), (0x30, 5), (0x31, 5), (0x32, 4), (0x40, 6), (0x41, 8),
   (0x42, 6), (0x43, 8), (0x44, 24), (0x50, 12)] ++
  [(0x60, 10), (0x61, 4), (0x62, 5), (0x63, 5), (0x64, 4), (0x65, 4), (0x66, 5), (0x67, 12),
   (0x68, 12), (0x69, 262), (0x6A, 5), (0x70, 20), (0x71, 5), (0x72, 4), (0x73, 6), (0x74, 4),
   (0x75, 4), (0x76, 4), (0x77, 4)]

/-- The minimum total length of a kind, none for a kind the catalogue does not hold. -/
def minLength (kind : Byte) : Option Nat := (requestKinds.find? fun k => k.1 == kind.toNat).map (·.2)

/-! ## Frames out of the part -/

/-- A slot of a drive frame as sent (section 11.1): drive status and actual count are sent 0. -/
def DriveSlot.bytes (d : DriveSlot) : List Byte :=
  leBytesInt 4 d.setpoint ++ [byteOf (bitsOf [d.torque, d.release])] ++ [0#8] ++ spare 2 ++
    leBytes 4 0

/-- A frame with its check appended (R191). -/
def withCheck (bs : List Byte) : List Byte := bs ++ leBytes 4 (crc32 bs).toNat

/-- The 152 bytes of a drive frame (section 11.1). -/
def DriveFrame.bytes (f : DriveFrame) : List Byte :=
  withCheck (leBytes 2 f.cycle.toNat ++ spare 2 ++ f.slots.toList.flatMap DriveSlot.bytes)

/-- The first cause kind byte: 0 for none, otherwise the cause's bit plus 1. -/
def firstCauseCode : Option FirstCause → Nat
  | none => 0
  | some f => f.kind.bit + 1

/-- The first cause detail byte: 0 for none. -/
def firstCauseDetail : Option FirstCause → Nat
  | none => 0
  | some f => f.detail

/-- The sources, two channels to a byte, the even slot in the low nibble. -/
def sourceBytes (src : Vector Source 12) : List Byte :=
  [byteOf (src[0].code + 16 * src[1].code), byteOf (src[2].code + 16 * src[3].code),
   byteOf (src[4].code + 16 * src[5].code), byteOf (src[6].code + 16 * src[7].code),
   byteOf (src[8].code + 16 * src[9].code), byteOf (src[10].code + 16 * src[11].code)]

/-- The recording slot byte: 0xFF for none. -/
def recordingSlotCode : Option DirIx → Nat
  | none => 0xFF
  | some i => i.val

/-- The 48 bytes of the status block (section 11.2). -/
def StatusBlock.bytes (b : StatusBlock) : List Byte :=
  [byteOf b.mode.code, byteOf b.stopState.code, byteOf (firstCauseCode b.firstCause),
   byteOf (firstCauseDetail b.firstCause)] ++
  leBytes 2 b.causes.toNat ++ sourceBytes b.sources ++ leBytes 2 b.sigma ++
  leBytes 2 b.currentHits.toNat ++ leBytes 2 b.stopHits.toNat ++
  [byteOf b.recorder.code, byteOf (recordingSlotCode b.recordingSlot)] ++ leBytes 2 b.missed ++
  [byteOf b.player.code, byteOf b.pointer.val] ++ leBytes 2 b.owners.toNat ++
  [byteOf b.sync.code, b.lensFlags] ++ leBytes 4 b.frameCount.toNat ++
  [byteOf b.depth, byteOf b.lateCount, byteOf b.badCount, byteOf b.dropped, b.generalFlags,
   b.arrayState] ++
  leBytes 2 b.dirtyLength ++ leBytes 2 b.erasedLength ++ spare 6

/-- How many bytes a reply takes (section 11.3). -/
def SentReply.size (r : SentReply) : Nat := 6 + r.answer.data.length

/-- The bytes of a reply (section 11.3). -/
def SentReply.bytes (r : SentReply) : List Byte :=
  [0x80#8, r.tag] ++ leBytes 2 r.size ++ [byteOf r.answer.code.code, r.kind] ++ r.answer.data

/-- The bytes of a return frame (section 11.1). -/
def ReturnFrame.bytes (f : ReturnFrame) : List Byte :=
  let replies := f.replies.flatMap SentReply.bytes
  withCheck (leBytes 2 f.cycle.toNat ++ leBytes 2 (bitsOf f.stale.toList) ++
    f.values.toList.flatMap (leBytesInt 4) ++ f.status.bytes ++ leBytes 2 replies.length ++ replies)

/-! ## Reply data (section 11.3) -/

/-- The 36-byte record of a channel slot. -/
def AxisRecord.bytes (a : AxisRecord) : List Byte :=
  [flagByte a.present, byteOf a.kind.code, flagByte a.brakePresent, byteOf a.confirm.code] ++
  leBytesInt 4 a.pmin ++ leBytesInt 4 a.pmax ++ leBytes 4 a.vmax ++ leBytes 4 a.amax ++
  leBytes 4 a.astop ++ leBytes 4 a.following ++ [byteOf a.followCount] ++ spare 1 ++
  leBytes 2 a.still ++ leBytes 4 a.divergence

/-- The 36-byte stop timing record. -/
def StopTiming.bytes (t : StopTiming) : List Byte :=
  [byteOf t.stillDwell, byteOf t.stillMask, byteOf t.brakeMask] ++ spare 1 ++
  leBytes 2 t.stillTimeout ++ leBytes 2 t.brakeTimer ++ leBytes 2 t.brakeTimeout ++
  leBytes 2 t.armingTimeout ++ spare 24

/-- A box in the order of the Zone Set body. -/
def boxBytes (b : Box) : List Byte :=
  leBytesInt 4 b.xmin ++ leBytesInt 4 b.xmax ++ leBytesInt 4 b.ymin ++ leBytesInt 4 b.ymax ++
  leBytesInt 4 b.zmin ++ leBytesInt 4 b.zmax

/-- A point, 12 bytes. -/
def pointBytes (p : Point) : List Byte := leBytesInt 4 p.x ++ leBytesInt 4 p.y ++ leBytesInt 4 p.z

/-- The response byte of a Zone Read: held for KeepOut and KeepIn and for an Unused entry. -/
def ZoneEntry.responseByte (z : ZoneEntry) : Byte :=
  if z.state ≠ .unused ∧ z.kind = .slow then Config.unreadResponseByte else byteOf z.response.code

/-- The scale field of a Zone Read: held for Slow and for an Unused entry. -/
def ZoneEntry.scaleField (z : ZoneEntry) : Nat :=
  if z.state ≠ .unused ∧ z.kind ≠ .slow then Config.unreadScale else z.scale

/-- The Zone Set body of an entry. -/
def ZoneEntry.bytes (z : ZoneEntry) (index : ZoneIx) : List Byte :=
  [byteOf index.val, byteOf z.state.code, byteOf z.kind.code, z.responseByte] ++ boxBytes z.box ++
  leBytes 4 z.margin ++ leBytes 2 z.scaleField ++ leBytes 2 z.refresh ++ leBytes 2 z.growth ++
  spare 2

/-- The data of a Zone Read (R69). -/
def ZoneMonitor.readBytes (z : ZoneMonitor) (i : ZoneIx) : List Byte :=
  z.zones[i].bytes i ++ leBytes 4 z.zones[i].age ++ boxBytes z.zones[i].effective ++
  pointBytes z.currentTip ++ pointBytes z.stopTip ++
  [byteOf (bitsOf [z.currentHits.getLsbD i.val, z.stopHits.getLsbD i.val])]

/-- The end field of a Cue Read. -/
def Cue.endField (c : Cue) : Nat := c.endIx.getD Config.takeEndField

/-- The data of a Cue Read: the Cue Write body, flags bit 0 giving owner Part, then status and
actual start frame. -/
def Cue.readBytes (c : Cue) (i : CueIx) : List Byte :=
  [byteOf i.val, byteOf (bitsOf [decide (c.owner = .part), c.lock, c.recordWith, c.endIx.isNone]),
   byteOf c.slot.val, byteOf c.trigger.code] ++
  leBytes 4 c.start ++ leBytes 4 c.endField ++ leBytes 2 c.speed ++ leBytes 2 c.mask.toNat ++
  [byteOf c.status.code] ++ spare 3 ++ leBytes 4 c.startFrame.toNat

/-- The data of a Directory Read (R147): the fields that section 11.3 lays out. R146's next data page
index and End accepted have no place in that layout and are not sent (log 49); of a count past 32
bits the low 32 are sent (log 50). -/
def DirectorySlot.readBytes (d : DirectorySlot) (i : DirIx) : List Byte :=
  [byteOf i.val, byteOf d.state.code, byteOf d.endReason.code,
   byteOf (bitsOf [d.locked, d.lockPending])] ++
  leBytes 4 d.info.serial.toNat ++ leBytes 2 d.info.mask.toNat ++ [byteOf d.info.divisor] ++
  spare 1 ++ d.info.modes.toList.map (fun m => byteOf m.code) ++
  leBytes 4 d.info.startFrame.toNat ++ leBytes 2 d.bays.length ++ spare 2 ++
  leBytes 4 d.dataPages ++ leBytes 4 d.samples ++ leBytes 4 d.marks ++ leBytes 4 d.gaps

/-- The data of a Lens Table Read: written flags, then the pairs. -/
def tableReadBytes (choice : Nat) (n : Byte) (entries : List StagingEntry) : List Byte :=
  [byteOf choice, n, byteOf entries.length] ++ spare 1 ++
  leBytes 4 (bitsOf (entries.map (·.written))) ++
  entries.flatMap fun e => leBytes 4 e.phys ++ leBytesInt 4 e.count

/-! ## Take array pages (section 11.4) -/

/-- Bytes 16 to 45 of a header page, over which the take header's CRC-16 runs (R193: bytes 34–45
stay 0xFF). -/
def TakeHeader.body (h : TakeHeader) : List Byte :=
  [byteOf h.slot.val, byteOf h.info.divisor] ++ leBytes 2 h.chain ++
  leBytes 4 h.info.serial.toNat ++ leBytes 2 h.info.mask.toNat ++
  h.info.modes.toList.map (fun m => byteOf m.code) ++ leBytes 4 h.info.startFrame.toNat ++
  List.replicate 12 erasedByte

/-- Bytes 16 to 47 of a header page: the take header and its CRC-16. -/
def TakeHeader.bytes (h : TakeHeader) : List Byte := h.body ++ leBytes 2 (crc16 h.body).toNat

/-- A take header read from bytes 16 to 47, if it is valid (R133). -/
def TakeHeader.ofBytes (bs : List Byte) : Option TakeHeader := do
  let body := bytesAt bs 0 30
  guard (bs.length = 32 ∧ fieldNat bs 30 2 = (crc16 body).toNat)
  let slot ← dirIxOf (fieldNat bs 0 1)
  let divisor := fieldNat bs 1 1
  let chain := fieldNat bs 2 2
  let mask ← maskOfField (BitVec.ofNat 16 (fieldNat bs 8 2))
  guard (1 ≤ divisor ∧ divisor ≤ 16 ∧ chain ≤ 511 ∧ mask ≠ 0)
  let m0 ← LensMode.ofCode (fieldNat bs 10 1)
  let m1 ← LensMode.ofCode (fieldNat bs 11 1)
  let m2 ← LensMode.ofCode (fieldNat bs 12 1)
  let m3 ← LensMode.ofCode (fieldNat bs 13 1)
  guard (m1 ≠ .follow ∧ m2 ≠ .follow ∧ m3 ≠ .follow)
  pure { slot := slot, chain := chain,
         info := { serial := BitVec.ofNat 32 (fieldNat bs 4 4), mask := mask, divisor := divisor,
                   modes := #v[m0, m1, m2, m3],
                   startFrame := BitVec.ofNat 32 (fieldNat bs 14 4) } }

/-- Entry bytes padded with 0xFF to the 254 of a data page (R193). -/
def padEntries (entries : List Byte) : List Byte :=
  (entries ++ List.replicate (254 - entries.length) erasedByte).take 254

/-- The 256 bytes of a data page: 254 entry bytes and their CRC-16 (R134). -/
def dataPageBytes (entries : List Byte) : List Byte :=
  padEntries entries ++ leBytes 2 (crc16 (padEntries entries)).toNat

/-- The CRC-16 of a data page is correct. -/
def pageCrcGood (page : List Byte) : Bool :=
  decide (fieldNat page 254 2 = (crc16 (bytesAt page 0 254)).toNat)

/-- A page is unprogrammed when its 256 bytes all read 0xFF (R134). -/
def pageUnprogrammed (page : List Byte) : Bool := page.all fun b => b == erasedByte

end Sys2Proof.Machine
end

