-- ==== Sys2Proof/Machine/Operands.lean ====
section
/-! DEFINITION. Reading what arrives: cycle frames, returned drive frames and the records of the service
lane (sections 11.1 and 11.3, R19 to R21, R191, R192). -/

namespace Sys2Proof.Machine

/-! ## Frames in -/

/-- The last four bytes of a frame are the CRC-32 of the bytes before them (R191). -/
def checkGood (frame : List Byte) : Bool :=
  fieldNat frame (frame.length - 4) 4 == (crc32 (frame.take (frame.length - 4))).toNat

/-- A demand slot of a cycle frame: the value, when its valid flag is set (R4). -/
abbrev DemandSlot := Option Int

/-- A cycle frame that has passed R1. -/
structure CycleFrame where
  cycle : CycleNo
  demands : Vector DemandSlot 12
  lane : List Byte
  deriving DecidableEq, Repr

/-- R1, R191: a cycle frame read from its bytes; none where it is discarded as bad. -/
def CycleFrame.ofBytes (frame : List Byte) : Option CycleFrame :=
  if 56 ≤ frame.length ∧ frame.length ≤ 1536 ∧ checkGood frame then
    some
      { cycle := BitVec.ofNat 16 (fieldNat frame 0 2)
        demands := Vector.ofFn fun c : Slot =>
          if (fieldNat frame 2 2).testBit c.val then some (fieldInt frame (4 + 4 * c.val) 4) else none
        lane := bytesAt frame 52 (frame.length - 56) }
  else none

/-- What a drive wrote into its slot: status and actual count (section 11.1). -/
structure DriveReply where
  status : DriveStatus
  actual : Int
  deriving DecidableEq, Repr

/-- The drive status byte. -/
def DriveStatus.ofByte (b : Byte) : DriveStatus :=
  { answered := b.getLsbD 0, fault := b.getLsbD 1, ready := b.getLsbD 2, torqueOn := b.getLsbD 3,
    brakeEngaged := b.getLsbD 4 }

/-- A returned drive frame: its number and the twelve slots. -/
structure DriveReturn where
  cycle : CycleNo
  slots : Vector DriveReply 12
  deriving DecidableEq, Repr

/-- R12, R191: a drive frame read from its bytes; none where its check or its length is bad. -/
def DriveReturn.ofBytes (frame : List Byte) : Option DriveReturn :=
  if frame.length = 152 ∧ checkGood frame then
    some
      { cycle := BitVec.ofNat 16 (fieldNat frame 0 2)
        slots := Vector.ofFn fun c : Slot =>
          { status := DriveStatus.ofByte (byteAt frame (9 + 12 * c.val))
            actual := fieldInt frame (12 + 12 * c.val) 4 } }
  else none

/-! ## Lane records -/

/-- The target, then the record, of an Axis Set: target 12 names the stop timing record. -/
def axisRecordOf (target : Nat) (r : List Byte) : AxisSetRecord :=
  if target = 12 then
    .timing
      { stillDwell := fieldNat r 0 1, stillMask := fieldNat r 1 1, brakeMask := fieldNat r 2 1,
        stillTimeout := fieldNat r 4 2, brakeTimer := fieldNat r 6 2, brakeTimeout := fieldNat r 8 2,
        armingTimeout := fieldNat r 10 2 }
  else
    .channel
      { present := fieldNat r 0 1, kind := fieldNat r 1 1, brakePresent := fieldNat r 2 1,
        confirm := fieldNat r 3 1, pmin := fieldInt r 4 4, pmax := fieldInt r 8 4,
        vmax := fieldNat r 12 4, amax := fieldNat r 16 4, astop := fieldNat r 20 4,
        following := fieldNat r 24 4, followCount := fieldNat r 28 1, still := fieldNat r 30 2,
        divergence := fieldNat r 32 4 }

/-- A box in the order of Zone Set. -/
def boxOf (r : List Byte) : Box :=
  { xmin := fieldInt r 0 4, xmax := fieldInt r 4 4, ymin := fieldInt r 8 4, ymax := fieldInt r 12 4,
    zmin := fieldInt r 16 4, zmax := fieldInt r 20 4 }

/-- The body of Zone Set. -/
def zoneFieldsOf (r : List Byte) : ZoneFields :=
  { index := fieldNat r 0 1, state := fieldNat r 1 1, kind := fieldNat r 2 1,
    response := fieldNat r 3 1, box := boxOf (r.drop 4), margin := fieldNat r 28 4,
    scale := fieldNat r 32 2, refresh := fieldNat r 34 2, growth := fieldNat r 36 2 }

/-- The body of Geometry Set. -/
def geometryFieldsOf (r : List Byte) : GeometryFields :=
  { lb := fieldNat r 0 4, x0 := fieldInt r 4 4, y0 := fieldInt r 8 4, z0 := fieldInt r 12 4,
    swing := fieldInt r 16 4, lift := fieldInt r 20 4 }

/-- The body of Lens Points: as many whole pairs as the length holds (R110). -/
def lensPointsOf (r : List Byte) : LensPointsFields :=
  { channel := fieldNat r 0 1, start := fieldNat r 1 1,
    pairs := (List.range ((r.length - 4) / 8)).map fun i =>
      { phys := fieldNat r (4 + 8 * i) 4, count := fieldInt r (8 + 8 * i) 4 }
    extra := (r.length - 4) % 8 }

/-- The body of Target Update. -/
def targetFieldsOf (r : List Byte) : TargetFields :=
  { point := ⟨fieldInt r 0 4, fieldInt r 4 4, fieldInt r 8 4⟩, refresh := fieldNat r 12 2,
    offset := fieldInt r 16 4 }

/-- The body of Record Start. -/
def recordStartOf (r : List Byte) : RecordStartFields :=
  { slot := fieldNat r 0 1, divisor := fieldNat r 1 1, trigger := fieldNat r 2 1,
    mask := BitVec.ofNat 16 (fieldNat r 4 2) }

/-- The body of Take Import. -/
def importOf (r : List Byte) : ImportFields :=
  { slot := fieldNat r 0 1, divisor := fieldNat r 1 1, mask := BitVec.ofNat 16 (fieldNat r 2 2),
    modes := #v[fieldNat r 4 1, fieldNat r 5 1, fieldNat r 6 1, fieldNat r 7 1] }

/-- The body of Cue Write. -/
def cueFieldsOf (r : List Byte) : CueFields :=
  let flags := byteAt r 1
  { index := fieldNat r 0 1, give := flags.getLsbD 0, lock := flags.getLsbD 1,
    recordWith := flags.getLsbD 2, takeEnd := flags.getLsbD 3, slot := fieldNat r 2 1,
    trigger := fieldNat r 3 1, start := fieldNat r 4 4, endIx := fieldNat r 8 4,
    speed := fieldNat r 12 2, mask := BitVec.ofNat 16 (fieldNat r 14 2) }

/-- The command of a record of a known kind with its tag and body; `none` for a kind that is not in
the catalogue. The table is cut in two so that each half stays small. -/
def cycleRequest (kind : Nat) (tag : Byte) (r : List Byte) : Option Instr :=
  match kind with
  | 0x01 => some (.gatewaySet tag (fieldNat r 0 2) (fieldNat r 2 1))
  | 0x02 => some (.mode tag (fieldNat r 0 1))
  | 0x03 => some (.restart tag)
  | 0x10 => some (.axisSet tag (fieldNat r 0 1) (axisRecordOf (fieldNat r 0 1) (r.drop 4)))
  | 0x11 => some (.axisRead tag (fieldNat r 0 1))
  | 0x12 => some (.sourceLive tag (BitVec.ofNat 16 (fieldNat r 0 2)))
  | 0x20 => some (.geometrySet tag (geometryFieldsOf r))
  | 0x21 => some (.zoneSet tag (zoneFieldsOf r))
  | 0x22 => some (.zoneClear tag (fieldNat r 0 1))
  | 0x23 => some (.liveZoneUpdate tag (fieldNat r 0 1) (boxOf (r.drop 4)))
  | 0x24 => some (.zoneRead tag (fieldNat r 0 1))
  | 0x30 => some (.stop tag (fieldNat r 0 1))
  | 0x31 => some (.rearm tag (fieldNat r 0 1))
  | 0x32 => some (.continueStop tag)
  | 0x40 => some (.lensModeSet tag (fieldNat r 0 1) (fieldNat r 1 1))
  | 0x41 => some (.lensPoints tag (lensPointsOf r))
  | 0x42 => some (.lensCommit tag (fieldNat r 0 1) (fieldNat r 1 1))
  | 0x43 => some (.lensTableRead tag
      ⟨fieldNat r 0 1, fieldNat r 1 1, fieldNat r 2 1, fieldNat r 3 1⟩)
  | 0x44 => some (.targetUpdate tag (targetFieldsOf r))
  | 0x50 => some (.syncSet tag (fieldNat r 0 2) (fieldNat r 2 1) (fieldNat r 4 4))
  | _ => none

/-- The same for the takes and the player. -/
def takeRequest (kind : Nat) (tag : Byte) (r : List Byte) : Option Instr :=
  match kind with
  | 0x60 => some (.recordStart tag (recordStartOf r))
  | 0x61 => some (.recordStop tag)
  | 0x62 => some (.takeErase tag (fieldNat r 0 1))
  | 0x63 => some (.takeLock tag (fieldNat r 0 1))
  | 0x64 => some (.protectionFreeze tag)
  | 0x65 => some (.arrayClear tag)
  | 0x66 => some (.directoryRead tag (fieldNat r 0 1))
  | 0x67 => some (.takeRead tag (fieldNat r 0 1) (fieldNat r 4 4))
  | 0x68 => some (.takeImport tag (importOf r))
  | 0x69 => some (.pageWrite tag (fieldNat r 0 1) (r.drop 4))
  | 0x6A => some (.importClose tag (fieldNat r 0 1))
  | 0x70 => some (.cueWrite tag (cueFieldsOf r))
  | 0x71 => some (.cueRead tag (fieldNat r 0 1))
  | 0x72 => some (.cuePoll tag)
  | 0x73 => some (.playerStart tag (fieldNat r 0 2))
  | 0x74 => some (.playerStop tag)
  | 0x75 => some (.go tag)
  | 0x76 => some (.resume tag)
  | 0x77 => some (.abandon tag)
  | _ => none

/-- The command that a record spells, by its kind, its tag and its body. -/
def requestOf (kind tag : Byte) (body : List Byte) : Option Instr :=
  match cycleRequest kind.toNat tag body with
  | some i => some i
  | none => takeRequest kind.toNat tag body

/-- R20: the total length of a record, from its header, when the record is not malformed. -/
def recordLength (lane : List Byte) : Option Nat :=
  let len := fieldNat lane 2 2
  if lane.length < 4 ∨ len < 4 ∨ 480 < len ∨ lane.length < len then none
  else match minLength (byteAt lane 0) with
    | some m => if len < m then none else some len
    | none => some len

/-- A record of a lane: its kind and tag as read, and the command it is. -/
structure LaneRecord where
  kind : Byte
  tag : Byte
  command : Instr
  deriving DecidableEq, Repr

/-- R19 to R21: the first record of a lane, with the bytes after it; no bytes are left after a
malformed record. -/
def firstRecord (lane : List Byte) : LaneRecord × List Byte :=
  let kind := byteAt lane 0
  let tag := byteAt lane 1
  match recordLength lane with
  | none => (⟨kind, tag, .malformedRecord kind tag⟩, [])
  | some len =>
    match requestOf kind tag (bytesAt lane 4 (len - 4)) with
    | some i => (⟨kind, tag, i⟩, lane.drop len)
    | none => (⟨kind, tag, .unknownRecord kind tag⟩, lane.drop len)

/-- The records of a lane in order; every record takes at least four bytes, so the lane's length
bounds their number. -/
def laneRecordsAux : Nat → List Byte → List LaneRecord
  | 0, _ => []
  | _ + 1, [] => []
  | fuel + 1, b :: bs =>
    let r := firstRecord (b :: bs)
    r.1 :: laneRecordsAux fuel r.2

/-- The records of a lane in order. -/
def laneRecords (lane : List Byte) : List LaneRecord := laneRecordsAux lane.length lane

end Sys2Proof.Machine
end

