-- ==== Sys2Proof/Machine/Entries.lean ====
section
/-! DEFINITION. The entries of data pages (R134, section 11.4), and the points and take values the
player reads from them (R182). -/

namespace Sys2Proof.Machine

/-- An entry of a data page (R134). `finish` is End. -/
inductive Entry where
  | sample (values : List Int)
  | hold (count : Nat)
  | mark (fraction frame index : Nat)
  | gap (count : Nat)
  | finish
  deriving DecidableEq, Repr

/-- The bytes of an entry as the recorder places it; spare bytes are 0x00 (R193). -/
def Entry.bytes : Entry → List Byte
  | .sample values => [0x01#8] ++ spare 3 ++ values.flatMap (leBytesInt 4)
  | .hold count => [0x02#8] ++ spare 1 ++ leBytes 2 count
  | .mark fraction frame index =>
    [0x03#8] ++ spare 1 ++ leBytes 2 fraction ++ leBytes 4 frame ++ leBytes 4 index
  | .gap count => [0x04#8] ++ spare 3 ++ leBytes 4 count
  | .finish => [0x05#8] ++ spare 3

/-- The size of an entry by its kind byte, for a mask of c channels; none for an unknown kind. -/
def entrySize (c : Nat) (kind : Byte) : Option Nat :=
  if kind = 0x01#8 then some (4 + 4 * c)
  else if kind = 0x02#8 then some 4
  else if kind = 0x03#8 then some 12
  else if kind = 0x04#8 then some 8
  else if kind = 0x05#8 then some 4
  else none

/-- The entry that begins a run of bytes long enough for its kind; spare bytes are ignored. -/
def readEntry (c : Nat) (bs : List Byte) : Entry :=
  if byteAt bs 0 = 0x01#8 then .sample ((List.range c).map fun i => fieldInt bs (4 + 4 * i) 4)
  else if byteAt bs 0 = 0x02#8 then .hold (fieldNat bs 2 2)
  else if byteAt bs 0 = 0x03#8 then .mark (fieldNat bs 2 2) (fieldNat bs 4 4) (fieldNat bs 8 4)
  else if byteAt bs 0 = 0x04#8 then .gap (fieldNat bs 4 4)
  else .finish

/-- The entries of a page, from its 254 entry bytes: none when a kind is unknown or an entry runs
past the last byte (R193). A kind byte of 0xFF ends the entries (R134). -/
def parseEntriesAux (c : Nat) : Nat → List Byte → Option (List Entry)
  | 0, _ => some []
  | _ + 1, [] => some []
  | fuel + 1, kind :: rest =>
    if kind = erasedByte then some []
    else
      match entrySize c kind with
      | none => none
      | some size =>
        if (kind :: rest).length < size then none
        else (parseEntriesAux c fuel ((kind :: rest).drop size)).map
          (readEntry c (kind :: rest) :: ·)

/-- The entries of a page's bytes for a mask of c channels. -/
def parseEntries (c : Nat) (bs : List Byte) : Option (List Entry) :=
  parseEntriesAux c bs.length bs

/-- How many sample indices an entry takes as a sample or a hold (R134). -/
def Entry.samples : Entry → Nat
  | .sample _ => 1
  | .hold count => count
  | _ => 0

/-- The Gap count of an entry. -/
def Entry.gaps : Entry → Nat
  | .gap count => count
  | _ => 0

/-- A Mark entry counts one mark. -/
def Entry.marks : Entry → Nat
  | .mark _ _ _ => 1
  | _ => 0

/-- A page's entries hold an End. -/
def hasEnd (es : List Entry) : Bool := es.any fun e => e == .finish

/-- A directory slot with a page's entries counted in (R134, R144, R155). The manual bounds none of the
three counts, and the model holds them without a bound (log 50). -/
def DirectorySlot.countIn (d : DirectorySlot) (es : List Entry) : DirectorySlot :=
  { d with
    samples := d.samples + (es.map Entry.samples).sum
    marks := d.marks + (es.map Entry.marks).sum
    gaps := d.gaps + (es.map Entry.gaps).sum }

/-! ## Points (R182) -/

/-- A point of a take: a sample index with one value per channel of the take's mask. -/
structure TakePoint where
  index : Nat
  values : List Int
  deriving DecidableEq, Repr

/-- One entry read after a context: the context after it, and the point it makes, if any. A Hold is
a point at the last index it takes (log 24), with the values before it. -/
def TakeContext.step (ctx : TakeContext) : Entry → TakeContext × Option TakePoint
  | .sample values =>
    ({ ctx with index := ctx.index + 1, values := some values }, some ⟨ctx.index, values⟩)
  | .hold count =>
    ({ ctx with index := ctx.index + count },
     ctx.values.map fun v => ⟨ctx.index + count - 1, v⟩)
  | .mark fraction _ index =>
    ({ ctx with marks := ctx.marks ++ [index * 65536 + fraction] }, none)
  | .gap count => ({ ctx with index := ctx.index + count }, none)
  | .finish => (ctx, none)

/-- The entries of a page read after a context: the context after the page, and its points. -/
def TakeContext.walk (ctx : TakeContext) : List Entry → TakeContext × List TakePoint
  | [] => (ctx, [])
  | e :: es =>
    let (c1, p) := ctx.step e
    let (c2, ps) := c1.walk es
    (c2, p.toList ++ ps)

/-- Where a position stands among the points of a take. -/
inductive Standing where
  /-- a point lies at the position exactly -/
  | exact (a : TakePoint)
  /-- the position lies between two neighbours -/
  | between (a b : TakePoint)
  /-- no point lies at or before the position -/
  | before (b : TakePoint)
  /-- no point lies after the position -/
  | after (a : TakePoint)
  /-- there is no point -/
  | nowhere
  deriving DecidableEq, Repr

/-- The last point at or before a position, and the first after it. -/
def standingOf (points : List TakePoint) (tau : Nat) : Standing :=
  match (points.filter fun p => decide (p.index * 65536 ≤ tau)).getLast?,
        points.find? fun p => decide (tau < p.index * 65536) with
  | some a, b? =>
    if a.index * 65536 = tau then .exact a
    else match b? with
      | some b => .between a b
      | none => .after a
  | none, some b => .before b
  | none, none => .nowhere

/-- The rank of a slot among the channels of a mask: how many lower slots it names. -/
def maskRank (m : Mask) (s : Slot) : Nat :=
  (allSlots.filter fun t => decide (t.val < s.val) && m.getLsbD t.val).length

/-- The value of a point for one channel of the take's mask. -/
def TakePoint.value (p : TakePoint) (m : Mask) (s : Slot) : Int := p.values.getD (maskRank m s) 0

/-- R182: the take value at a position for one channel, none where the take has no point. -/
def Standing.value (st : Standing) (tau : Nat) (m : Mask) (s : Slot) : Option Int :=
  match st with
  | .exact a => some (a.value m s * 65536)
  | .between a b =>
    some (a.value m s * 65536 +
      divRound ((b.value m s - a.value m s) * ((tau : Int) - a.index * 65536))
        ((b.index : Int) - a.index))
  | .before b => some (b.value m s * 65536)
  | .after a => some (a.value m s * 65536)
  | .nowhere => none

end Sys2Proof.Machine
end

