-- ==== Sys2Proof/Machine/Lens.lean ====
section
/-! DEFINITION. The lens mapper's arithmetic (section 6.5), windows (R108), follow value (R117) and
the request of each cycle (R107, R120). -/

namespace Sys2Proof.Machine

/-! ## Tables -/

/-- R106: a table is valid when its point count is 2 or more. -/
def validTable (t : List LensPair) : Bool := decide (2 ≤ t.length)

/-- R114: the forward map of a physical value through a table, the value clamped to its range. The
empty table has no map in the manual: a free value (log 46). -/
def forwardMap : List LensPair → Int → Int
  | [], x => (Config.emptyForward x).toInt
  | [a], _ => a.count
  | a :: b :: rest, x =>
    if x < a.phys then a.count
    else if x < b.phys then
      a.count + divRound ((b.count - a.count) * (x - a.phys)) ((b.phys : Int) - a.phys)
    else forwardMap (b :: rest) x

/-- R114: the reverse map of a count through a table, the count clamped to its range. The empty table
has no map in the manual: a free value (log 46). -/
def reverseMap : List LensPair → Int → Int
  | [], c => (Config.emptyReverse c).toNat
  | [a], _ => a.phys
  | a :: b :: rest, c =>
    if a.count < b.count then
      if c < a.count then a.phys
      else if c < b.count then
        a.phys + divRound (((b.phys : Int) - a.phys) * (c - a.count)) (b.count - a.count)
      else reverseMap (b :: rest) c
    else
      if c > a.count then a.phys
      else if c > b.count then
        a.phys + divRound (((b.phys : Int) - a.phys) * (c - a.count)) (b.count - a.count)
      else reverseMap (b :: rest) c

/-- R106: the ends of the physical range; the empty table gives 0 to 0. -/
def physRange (t : List LensPair) : Int × Int :=
  match t.head?, t.getLast? with
  | some a, some b => (a.phys, b.phys)
  | _, _ => (0, 0)

/-- A physical value clamped to the table's physical range (R27). -/
def clampPhys (t : List LensPair) (x : Int) : Int := clamp x (physRange t).1 (physRange t).2

/-- R106: the count range, from the least count to the greatest. -/
def countRange (t : List LensPair) : Int × Int :=
  match t.head?, t.getLast? with
  | some a, some b => (min a.count b.count, max a.count b.count)
  | _, _ => (0, 0)

/-- The mode drives the channel with physical values. -/
def LensMode.physical : LensMode → Bool
  | .map => true | .follow => true | .off => false | .direct => false

/-! ## Windows -/

/-- R108: the effective window, in counts, of a lens channel with this axis record, mode and
table. A channel in Map or Follow whose table in force is still empty has no count range to be
narrowed to: its window is the axis window (log 47). -/
def lensWindow (a : AxisRecord) (mode : LensMode) (table : List LensPair) : Int × Int :=
  if mode.physical ∧ table ≠ [] then
    let r := countRange table
    let lo := max a.pmin r.1
    let hi := min a.pmax r.2
    if lo ≤ hi then (lo, hi)
    else if a.pmax < r.1 then (a.pmax, a.pmax)
    else (a.pmin, a.pmin)
  else (a.pmin, a.pmax)

/-- The table that will be in force at the next served cycle: the pending table if there is one
(R109, R112). -/
def LensChannel.coming (l : LensChannel) : List LensPair := l.pending.getD l.active

/-- The effective window of a channel as it stands, in counts (R45, R108). -/
def Part.window (s : Part) (c : Slot) : Int × Int :=
  match lensOf c with
  | none => (s.shaper.axes[c].pmin, s.shaper.axes[c].pmax)
  | some l => lensWindow s.shaper.axes[c] s.lens.chans[l].mode s.lens.chans[l].active

/-- A window in fine units. -/
def fineWindow (w : Int × Int) : Int × Int := (w.1 * 65536, w.2 * 65536)

/-- One lens channel record replaced. -/
def LensMapper.setChan (m : LensMapper) (l : LensIx) (c : LensChannel) : LensMapper :=
  { m with chans := m.chans.set l c }

/-! ## The start of a served cycle -/

/-- R112: the pending table replaces the active table. -/
def LensChannel.install (l : LensChannel) : LensChannel :=
  match l.pending with
  | none => l
  | some t => { l with active := t, pending := none }

/-- R112 for every lens channel. -/
def LensMapper.install (m : LensMapper) : LensMapper :=
  { m with chans := Vector.ofFn fun l : LensIx => m.chans[l].install }

/-- R116: the target ages, and its stale flag is set or cleared. -/
def Target.grow (t : Target) : Target :=
  let age := bumpAge t.age
  { t with age := age, stale := !t.present || decide (t.refresh < age) }

/-! ## The request of a cycle -/

/-- R117: the follow value before the clamp, in mm. -/
def followValue (tip : Point) (t : Target) : Int :=
  let dx := t.point.x - tip.x
  let dy := t.point.y - tip.y
  let dz := t.point.z - tip.z
  let d := isqrt (dx * dx + dy * dy + dz * dz).toNat
  (((d + 50) / 100 : Nat) : Int) + t.offset

/-- R107: the value a Live lens channel takes from fresh input this cycle, before the clamp: none
when its slot is stale or faulted, or the target of a Follow channel is stale (R117). -/
def freshInput (m : LensMapper) (l : LensIx) (fb : Feedback) (tip : Point) (demand : Int) :
    Option Int :=
  if fb.stale ∨ fb.status.fault then none
  else
    match m.chans[l].mode with
    | .follow => if m.target.stale then none else some (followValue tip m.target)
    | _ => some demand

/-- R107: a Live lens channel's record after its request is formed, and the request as a count. A Live
channel in Off, for which R107 has no row, is formed as in Direct (log 55). -/
def LensChannel.formLive (c : LensChannel) (input : Option Int) : LensChannel × Int :=
  if c.mode.physical then
    let x := match input with
      | some v => clampPhys c.active v
      | none => c.lastDemand
    ({ c with lastDemand := x, physical := x.toNat }, forwardMap c.active x)
  else
    let x := input.getD c.lastDemand
    ({ c with lastDemand := x }, x)

/-- R120: the physical value of a take value in fine units. -/
def takePhysical (table : List LensPair) (value : Int) : Int := clampPhys table (countOf value)

/-- R120, R44: a Take lens channel's record and its request in fine units. A Take channel in Off, for which
R120 has no case, is handed the take value unchanged, as in Direct (log 55). -/
def LensChannel.formTake (c : LensChannel) (value : Int) : LensChannel × Int :=
  if c.mode.physical then
    let x := takePhysical c.active value
    ({ c with physical := x.toNat }, forwardMap c.active x * 65536)
  else (c, value)

/-- R119: the physical request of a Parked channel is the reverse map of its park position's count; in
Direct, and in Off (log 55), it has none. -/
def LensChannel.formParked (c : LensChannel) (park : Int) : LensChannel :=
  if c.mode.physical then { c with physical := (reverseMap c.active (countOf park)).toNat } else c

/-- R118: the last demand of a channel that takes up at a count (R29, R42), or changes mode at it (R109), in
the unit of its mode. In Map and Follow the reverse map goes through the table that will be in force:
R109 says so of a change of mode; that a take-up by Mode Run while a table is pending uses the pending
table too is the model's choice (log 27). A channel in Off keeps its last demand (log 38). -/
def LensChannel.setLastDemand (c : LensChannel) (count : Int) : LensChannel :=
  match c.mode with
  | .off => c
  | .direct => { c with lastDemand := count }
  | .map => { c with lastDemand := reverseMap c.coming count }
  | .follow => { c with lastDemand := reverseMap c.coming count }

/-- R176, R187: a take value as a count of its channel: a lens channel in Map or Follow through its
active table, any other channel directly, a lens channel in Off among them (log 55). -/
def Part.valueCount (s : Part) (c : Slot) (value : Int) : Int :=
  match lensOf c with
  | some l =>
    if s.lens.chans[l].mode.physical then
      forwardMap s.lens.chans[l].active (takePhysical s.lens.chans[l].active value)
    else countOf value
  | none => countOf value

/-- R42: the park position of a held value given as a named position. -/
def Part.namedPark (s : Part) (c : Slot) (value : Int) : Int :=
  match lensOf c with
  | some l => if s.lens.chans[l].mode.physical then s.valueCount c value * 65536 else value
  | none => value

end Sys2Proof.Machine
end

