-- ==== Sys2Proof/Machine/Shaper.lean ====
section
/-! DEFINITION. The envelope shaper: stopping distance and braking speed (R47, R48), the step of a
channel (R39, R45, R50), parking and taking up (R39, R40), and the shaper's work in a served
cycle. -/

namespace Sys2Proof.Machine

/-- D(v, A) of R48 for a speed v ≥ 0. -/
def stoppingDistance (v a : Nat) : Nat :=
  let n := v / a
  n * v - a * (n * (n + 1) / 2)

/-- B(d, A) of R47. -/
def brakingSpeed (d a : Nat) : Nat :=
  let m := 2 * d / a
  let k := (isqrt (4 * m + 1) - 1) / 2
  a * k + (d - a * (k * (k + 1) / 2)) / (k + 1)

/-- The stopping extent p + sign(v) × D(v, A) (R48). -/
def stoppingExtent (p v : Int) (a : Nat) : Int := p + v.sign * (stoppingDistance v.natAbs a : Int)

/-- Veff of step 4 of R45. -/
def effectiveSpeed (vmax sigma : Nat) : Nat := max 1 (vmax * sigma / 4096)

/-- The velocity v′ of R45 for a clamped request rc. -/
def nextVelocity (p v rc : Int) (amax veff : Nat) : Int :=
  let e := rc - p
  let vt := clamp (e.sign * (brakingSpeed e.natAbs amax : Int)) (-(veff : Int)) veff
  clamp vt (v - amax) (v + amax)

/-- R45: a channel on Live, Take or Parked stepped towards its request r. -/
def Channel.shape (c : Channel) (r : Int) (w : Int × Int) (amax veff : Nat) : Channel :=
  let v' := nextVelocity c.p c.v (clamp r w.1 w.2) amax veff
  { c with p := c.p + v', v := v' }

/-- R50: the stop generator's step at the latched ramp deceleration. -/
def Channel.generate (c : Channel) : Channel :=
  let v' := c.v.sign * max ((c.v.natAbs : Int) - c.rampDecel) 0
  { c with p := c.p + v', v := v' }

/-- R39: the shaped state set from the feedback record, clamped to the effective window. -/
def Channel.follow (c : Channel) (actual : Int) (w : Int × Int) : Channel :=
  { c with p := clamp (actual * 65536) w.1 w.2, v := 0 }

/-- R39: a channel takes up its shaped state on a source. -/
def Channel.takeUp (c : Channel) (actual : Int) (w : Int × Int) (source : Source) : Channel :=
  { c.follow actual w with source := source }

/-- R40: parked without a position being named. -/
def Channel.parkHere (c : Channel) (amax : Nat) : Channel :=
  { c with park := stoppingExtent c.p c.v amax, source := .parked }

/-- R40: parked at a named position. -/
def Channel.parkAt (c : Channel) (position : Int) : Channel :=
  { c with park := position, source := .parked }

/-- A change of source that keeps the shaped state. -/
def Channel.withSource (c : Channel) (source : Source) : Channel := { c with source := source }

/-! ## The step of a served cycle -/

/-- The source gives a request that R45 shapes towards. -/
def Source.shaped : Source → Bool
  | .live => true | .take => true | .parked => true | .stop => false | .track => false

/-- The speed scale that applies to a channel: σ for a motion axis, 4,096 for a lens channel
(R45 step 4). -/
def Shaper.scaleOf (sh : Shaper) (c : Slot) : Nat := if isMotion c then sh.sigma else 4096

/-- One channel's step of a served cycle, by its source (R38). -/
def Part.stepChannel (s : Part) (requests : Vector Int 12) (c : Slot) : Channel :=
  let ch := s.shaper.chans[c]
  let ax := s.shaper.axes[c]
  let w := fineWindow (s.window c)
  match ch.source with
  | .live => ch.shape requests[c] w ax.amax (effectiveSpeed ax.vmax (s.shaper.scaleOf c))
  | .take => ch.shape requests[c] w ax.amax (effectiveSpeed ax.vmax (s.shaper.scaleOf c))
  | .parked => ch.shape requests[c] w ax.amax (effectiveSpeed ax.vmax (s.shaper.scaleOf c))
  | .stop => ch.generate
  | .track => ch.follow s.gateway.feedback[c].actual w

/-- All twelve channels stepped. -/
def Part.stepShaper (s : Part) (requests : Vector Int 12) : Shaper :=
  { s.shaper with chans := Vector.ofFn fun c => s.stepChannel requests c }

/-- R52, R10: the setpoint of each channel after the step: the count of its shaped position, or on
Track its last actual count. -/
def Part.setpoints (s : Part) : Vector Int 12 :=
  Vector.ofFn fun c =>
    if s.shaper.chans[c].source = .track then s.gateway.feedback[c].actual
    else countOf s.shaper.chans[c].p

/-- R52: every present motion axis has v = 0. -/
def Shaper.atRest (sh : Shaper) : Bool := sh.motion.all fun a => sh.chans[Axis.slot a].v == 0

/-- R52: a channel stands on its clamped request at rest. -/
def Channel.onRequest (c : Channel) (r : Int) (w : Int × Int) : Bool :=
  c.p == clamp r w.1 w.2 && c.v == 0

/-- R54: the present Take channels whose shaped count differs from the count of their request by
more than the divergence limit, ascending. -/
def Shaper.divergent (sh : Shaper) (requests : Vector Int 12) : List Slot :=
  allSlots.filter fun c =>
    sh.axes[c].present && decide (sh.chans[c].source = .take) &&
    decide (sh.axes[c].divergence ≠ 0) &&
    decide (sh.axes[c].divergence < (countOf sh.chans[c].p - countOf requests[c]).natAbs)

/-! ## Following error (R53) -/

/-- R53: the following run after the feedback of an answered slot. -/
def AxisRecord.nextRun (a : AxisRecord) (run : Nat) (torque : Bool) (actual setpoint : Int) : Nat :=
  if !torque || a.following == 0 then 0
  else if (actual - setpoint).natAbs ≤ a.following then 0
  else min a.followCount (run + 1)

/-- R53: the error of this feedback exceeds the limit. -/
def AxisRecord.exceeds (a : AxisRecord) (torque : Bool) (actual setpoint : Int) : Bool :=
  torque && a.following != 0 && decide (a.following < (actual - setpoint).natAbs)

/-! ## Source changes of the stop sequencer (R41) -/

/-- A motion axis's channel changed where the axis is present. -/
def Shaper.onMotion (sh : Shaper) (f : AxisRecord → Channel → Channel) : Shaper :=
  sh.mapChans fun s c => if isMotion s && sh.axes[s].present then f sh.axes[s] c else c

/-- A lens channel on Take parked by R40 without a named position (R41, R87). -/
def Shaper.parkTakeLenses (sh : Shaper) : Shaper :=
  sh.mapChans fun s c =>
    if !isMotion s && decide (c.source = .take) then c.parkHere sh.axes[s].amax else c

/-- R41: on leaving Running, the resume source is recorded. -/
def Shaper.recordResume (sh : Shaper) : Shaper :=
  sh.onMotion fun _ c => { c with resume := if c.source = .live then .live else .parked }

/-- R41: when a ramp begins, the Stop source with Astop latched. -/
def Shaper.beginRamp (sh : Shaper) : Shaper :=
  sh.onMotion fun a c => { c with source := .stop, rampDecel := a.astop }

/-- R41: when Holding is entered, Parked at the shaped position. -/
def Shaper.holdHere (sh : Shaper) : Shaper := sh.onMotion fun _ c => c.parkAt c.p

/-- R41: when Safe-Off is entered, Track. -/
def Shaper.track (sh : Shaper) : Shaper := sh.onMotion fun _ c => c.withSource .track

/-- R41: when Continue is accepted, Live where the resume source is Live. -/
def Shaper.resumeLive (sh : Shaper) : Shaper :=
  sh.onMotion fun _ c => if c.resume = .live then c.withSource .live else c

/-- R41, R99: when Rearm is accepted, each present motion axis takes up Parked at the taken-up
position. -/
def Part.takeUpParked (s : Part) : Shaper :=
  s.shaper.mapChans fun c ch =>
    if isMotion c && s.shaper.axes[c].present then
      let t := ch.takeUp s.gateway.feedback[c].actual (fineWindow (s.window c)) .parked
      t.parkAt t.p
    else ch

end Sys2Proof.Machine
end

