-- ==== Sys2Proof/Machine/Player.lean ====
section
/-! DEFINITION. The player's own work: judging and fetching a cue (R176), the prefetch (R179, R183),
entering Playing (R180), the take value of a step (R181, R182) and returning cues (R173). Reads are
only placed in the player's list here; the take array controller starts them (TakeArray.lean). -/

namespace Sys2Proof.Machine

/-! ## Reads and the prefetch -/

/-- The data page indices of the player's reads that have not completed and are not withdrawn. -/
def TakeArray.playerReads (t : TakeArray) : List Nat :=
  (match t.operation with
    | some (.job (.playerRead _ k) false) => [k]
    | _ => []) ++
  t.playerJobs.filterMap fun j => match j with
    | .playerRead _ k => some k
    | _ => none

/-- A page read placed at the end of the player's list. -/
def TakeArray.addRead (t : TakeArray) (slot : DirIx) (page : Nat) : TakeArray :=
  { t with playerJobs := t.playerJobs ++ [.playerRead slot page] }

/-- R185: waiting reads are removed; a read in progress completes and its data is discarded. -/
def TakeArray.withdrawReads (t : TakeArray) : TakeArray :=
  { t with
    playerJobs := []
    operation := match t.operation with
      | some (.job (.playerRead slot k) _) => some (.job (.playerRead slot k) true)
      | other => other }

/-- The cue at the pointer. -/
def Player.current (p : Player) : Cue := p.cues[p.pointer]

/-- The directory slot that the cue at the pointer names. -/
def Part.cueTake (s : Part) : DirectorySlot := s.array.directory[s.player.current.slot]

/-- Reads withdrawn and the prefetch emptied (R185). -/
def Part.dropReads (s : Part) : Part :=
  { s with array := s.array.withdrawReads,
           player := { s.player with prefetch := [], context := TakeContext.begin } }

/-- A readable prefetched page with the context before it, its points, and the context after it. -/
structure WalkedPage where
  page : Nat
  before : TakeContext
  points : List TakePoint
  after : TakeContext
  deriving DecidableEq, Repr

/-- The pages of the prefetch read in order, up to the first that cannot be read. -/
def walkPages (channels : Nat) (ctx : TakeContext) : List PrefetchPage → List WalkedPage
  | [] => []
  | p :: rest =>
    if p.readable then
      match parseEntries channels p.entries with
      | none => []
      | some es =>
        let w := ctx.walk es
        ⟨p.page, ctx, w.2, w.1⟩ :: walkPages channels w.1 rest
    else []

/-- The prefetch walked. -/
def Part.walked (s : Part) : List WalkedPage :=
  walkPages (Mask.size s.cueTake.info.mask) s.player.context s.player.prefetch

/-- All points of walked pages. -/
def pointsOf (ws : List WalkedPage) : List TakePoint := ws.flatMap (·.points)

/-- The walked pages reach the take's last data page. -/
def reachesEnd (ws : List WalkedPage) (dataPages : Nat) : Bool :=
  match ws.getLast? with
  | some w => decide (dataPages ≤ w.page + 1)
  | none => false

/-- The page that must be kept for a position: the one holding point a (R176, R183). Where no point lies at or
before the position the rules name none; the model keeps the page of the first point, or the last page
read where there is no point (log 58). -/
def keptPage (ws : List WalkedPage) (st : Standing) : Option WalkedPage :=
  match st with
  | .exact a => ws.reverse.find? fun w => w.points.contains a
  | .between a _ => ws.reverse.find? fun w => w.points.contains a
  | .after a => ws.reverse.find? fun w => w.points.contains a
  | .before b => ws.find? fun w => w.points.contains b
  | .nowhere => ws.getLast?

/-- The pages before the kept one dropped; the context moves to the kept page's start. -/
def Player.dropBefore (p : Player) (kept : Option WalkedPage) : Player :=
  match kept with
  | none => p
  | some w => { p with prefetch := p.prefetch.filter (fun (q : PrefetchPage) => decide (w.page ≤ q.page)),
                       context := w.before }

/-! ## Returning a cue (R173) -/

/-- The cue at the pointer returned with a status. -/
def Player.returnCue (p : Player) (status : CueStatus) : Player :=
  { p with cues := p.cues.set p.pointer { p.current with owner := .controller, status := status } }

/-- The pointer takes the next index, wrapping from 15 to 0. -/
def Player.advance (p : Player) : Player := { p with pointer := p.pointer + 1 }

/-! ## Fetching (R176) -/

/-- R176 step 2: a recorded lens mode matches the channel's mode now. -/
def modesMatch : LensMode → LensMode → Bool
  | .direct, .direct => true
  | .map, .map => true
  | .map, .follow => true
  | .follow, .map => true
  | .follow, .follow => true
  | _, _ => false

/-- The lens modes of the played lens channels match the take's. -/
def Part.modesOk (s : Part) (played : Mask) (info : TakeInfo) : Bool :=
  (List.finRange 4).all fun l =>
    !Mask.has played (LensIx.slot l) || modesMatch info.modes[l] s.lens.chans[l].mode

/-- R176 steps 1 and 2: the player with the cue's span, increment and played channels, or the status
with which the cue fails. A take without a data page cannot be read (log 37). -/
def Part.judgeTake (s : Part) : Except CueStatus Player :=
  let cue := s.player.current
  let d := s.cueTake
  let total := d.samples + d.gaps
  let played := cue.mask &&& d.info.mask
  if d.state ≠ .closed ∧ d.state ≠ .truncated then .error .badTake
  else if total = 0 ∨ total - 1 < cue.start ∨ played = 0 ∨ d.dataPages = 0 then .error .badTake
  else if s.modesOk played d.info then
    .ok { s.player with
      played := played
      tauStart := cue.start * 65536
      tauEnd := (match cue.endIx with
        | some e => min e (total - 1)
        | none => total - 1) * 65536
      delta := cue.speed * 16 / d.info.divisor }
  else .error .modeMismatch

/-- A fetch check fails: the cue is returned, the prefetch emptied and the pointer advances. -/
def Part.failCue (s : Part) (status : CueStatus) : Part :=
  let s1 := s.dropReads
  { s1 with player := (s1.player.returnCue status).advance }

/-- R176: Fetching is entered at the entry the pointer names, and at the next after each failure.
Each failure returns one of the sixteen entries, so seventeen rounds end at a controller-owned
entry or at a take to read. -/
def Part.fetchRounds : Nat → Part → Part
  | 0, s => s
  | rounds + 1, s =>
    if s.player.current.owner = .controller then
      { s with player := { s.player with state := .suspended, autoCount := 0 } }
    else
      match s.judgeTake with
      | .error status => Part.fetchRounds rounds (s.failCue status)
      | .ok p =>
        { s with
          player := { p with state := .fetching, prefetch := [], context := TakeContext.begin }
          array := s.array.addRead s.player.current.slot 0 }

/-- R176: the player enters Fetching. -/
def Part.enterFetching (s : Part) : Part := Part.fetchRounds 17 s

/-- R182: the take value of a channel at a position; a take that holds no point gives a free value
(log 23). -/
def Part.takeValue (s : Part) (st : Standing) (tau : Nat) (c : Slot) : Int :=
  (st.value tau s.cueTake.info.mask c).getD (Config.noPointValue (s.freeCount + c.val))

/-- The values of the played channels at a position. -/
def Part.takeValues (s : Part) (st : Standing) (tau : Nat) : Vector (Option Int) 12 :=
  Vector.ofFn fun c => if Mask.has s.player.played c then some (s.takeValue st tau c) else none

/-- The counter of fresh values after a position's values were formed. -/
def Part.freeAfter (s : Part) (st : Standing) : Nat :=
  if st = .nowhere then s.freeCount + 12 else s.freeCount

/-- A held value of a played channel, as a count, lies in the channel's effective window (R176,
R187). -/
def Part.heldInside (s : Part) (held : Vector (Option Int) 12) (c : Slot) : Bool :=
  match held[c] with
  | none => true
  | some v =>
    let n := s.valueCount c v
    decide ((s.window c).1 ≤ n) && decide (n ≤ (s.window c).2)

/-- R176 step 3: every played channel is present and its starting value lies in its window. -/
def Part.startInside (s : Part) (held : Vector (Option Int) 12) : Bool :=
  (Mask.slots s.player.played).all fun c => s.shaper.axes[c].present && s.heldInside held c

/-- R178: Approaching is entered: each played channel takes the Take source and keeps its shaped state. So
does a lens channel that is on Track by then, set to Off while the fetch's reads were outstanding: R178
and R42 have it keep, where R39 would have it take up (log 54). -/
def Part.enterApproaching (s : Part) : Part :=
  { s with
    player := { s.player with state := .approaching }
    shaper := s.shaper.mapChans fun c ch =>
      if Mask.has s.player.played c then ch.withSource .take else ch }

/-- R176: the fetch has read far enough: the start is judged. -/
def Part.finishFetch (s : Part) (st : Standing) : Part :=
  let held := s.takeValues st s.player.tauStart
  let s1 := { s with freeCount := s.freeAfter st }
  if s1.startInside held then
    { s1 with player := { s1.player with
        held := held
        prefetch := s1.player.prefetch.take 4
        haltReason := .none
        goLatch := false
        resumed := false } }.enterApproaching
  else (s1.failCue .outOfWindow).enterFetching

/-- R176 step 3: a page of the fetch has been read; `none` stands for a bad CRC-16 or a read
completed as not available. -/
def Part.fetchArrived (s : Part) (page : Nat) (data : Option (List Byte)) : Part :=
  match data with
  | none => (s.failCue .badTake).enterFetching
  | some bytes =>
    if parseEntries (Mask.size s.cueTake.info.mask) bytes = none then
      (s.failCue .badTake).enterFetching
    else
      let p1 := { s.player with prefetch := s.player.prefetch ++ [⟨page, true, bytes⟩] }
      let s1 := { s with player := p1 }
      let ws := s1.walked
      let st := standingOf (pointsOf ws) s.player.tauStart
      let s2 := { s1 with player := p1.dropBefore (keptPage ws st) }
      let found := (pointsOf ws).any fun q => decide (s.player.tauStart ≤ q.index * 65536)
      if found || decide (s.cueTake.dataPages ≤ page + 1) then s2.finishFetch st
      else { s2 with array := s2.array.addRead s.player.current.slot (page + 1) }

/-! ## The prefetch (R179, R183) -/

/-- The data page index after the last page held or being read. -/
def Part.nextPrefetch (s : Part) : Nat :=
  ((s.player.prefetch.map fun (q : PrefetchPage) => q.page + 1) ++
    (s.array.playerReads.map fun k => k + 1)).foldl max 0

/-- R179: reads requested while held and outstanding together are below four and the take has a
further data page. -/
def Part.fillRounds : Nat → Part → Part
  | 0, s => s
  | rounds + 1, s =>
    if s.player.prefetch.length + s.array.playerReads.length < 4 ∧
        s.nextPrefetch < s.cueTake.dataPages then
      Part.fillRounds rounds
        { s with array := s.array.addRead s.player.current.slot s.nextPrefetch }
    else s

/-- R179: the player fills the prefetch. -/
def Part.fillPrefetch (s : Part) : Part := Part.fillRounds 4 s

/-- R179: the prefetch is complete. -/
def Part.prefetchComplete (s : Part) : Bool :=
  decide (4 ≤ s.player.prefetch.length) ||
  (match s.player.prefetch.getLast? with
    | some q => decide (s.cueTake.dataPages ≤ q.page + 1)
    | none => false)

/-- R180: Playing is entered. -/
def Part.enterPlaying (s : Part) : Part :=
  let p := s.player
  let tau := if p.resumed then p.tauHalt else p.tauStart
  { s with player := { p with
      state := .playing
      cues := p.cues.set p.pointer { p.current with startFrame := s.sync.frameCount }
      tau := tau
      correction := 0
      lockGivenUp := false
      liveMark := 0
      goLatch := false
      firstStep := true
      entryTau := tau } }

/-- R179: a Go cue whose latch is set plays as soon as the prefetch is complete. -/
def Part.takeLatchedGo (s : Part) : Part :=
  if s.player.state = .waiting ∧ s.player.current.trigger = .go ∧ s.player.goLatch ∧
      s.prefetchComplete then s.enterPlaying
  else s

/-- R179, R186: a page joins the prefetch, readable or marked unreadable. -/
def Part.prefetchArrived (s : Part) (page : Nat) (data : Option (List Byte)) : Part :=
  let q : PrefetchPage := match data with
    | some bytes => ⟨page, true, bytes⟩
    | none => ⟨page, false, []⟩
  { s with player := { s.player with prefetch := s.player.prefetch ++ [q] } }.takeLatchedGo

/-- A page read of the player has completed (R176, R179). -/
def Part.playerReadDone (s : Part) (page : Nat) (data : Option (List Byte)) : Part :=
  match s.player.state with
  | .fetching => s.fetchArrived page data
  | .stopped => s
  | .suspended => s
  | .approaching => s.prefetchArrived page data
  | .waiting => s.prefetchArrived page data
  | .playing => s.prefetchArrived page data
  | .halted => s.prefetchArrived page data
  | .closing => s.prefetchArrived page data

/-! ## The step in Playing (R181 to R183) -/

/-- Where a position stands in the prefetch: none when a page it needs is missing or unreadable, or
when a page before it is gone (R183). -/
def Part.stepStanding (s : Part) (tau : Nat) : Option Standing :=
  let ws := s.walked
  let atEnd := reachesEnd ws s.cueTake.dataPages
  match standingOf (pointsOf ws) tau with
  | .exact a => some (.exact a)
  | .between a b => some (.between a b)
  | .after a => if atEnd then some (.after a) else none
  | .before b => if s.player.context.values = none then some (.before b) else none
  | .nowhere => if atEnd ∧ s.player.context.values = none then some .nowhere else none

/-- R181: the position of the next step. -/
def Player.nextTau (p : Player) : Nat :=
  if p.firstStep then p.tau
  else min p.tauEnd ((p.tau : Int) + p.delta + p.correction).toNat

/-- R184: frame lock is given up at a step outside Locked and Freewheel. -/
def SyncState.trusted : SyncState → Bool
  | .locked => true | .freewheel => true | .absent => false | .acquiring => false | .lost => false

/-- R181, R184: the correction after a step. A later step has added it, and it is 0; the first step adds
none, so one formed before it stays for the next step, unless frame lock is given up (log 25). -/
def Player.correctionAfter (p : Player) (givenUp : Bool) : Int :=
  if p.firstStep && !givenUp then p.correction else 0

/-- R181, R183: the step at a position whose points are at hand, and the reads that follow it. The
recorder is told separately. -/
def Part.makeStep (s : Part) (tau : Nat) (st : Standing) : Part :=
  let p := s.player
  let givenUp := p.lockGivenUp || !s.sync.state.trusted
  let p1 := { p with
    tau := tau
    correction := p.correctionAfter givenUp
    held := s.takeValues st tau
    firstStep := false
    lockGivenUp := givenUp
    state := if tau = p.tauEnd then .closing else .playing }
  Part.fillPrefetch { s with
    freeCount := s.freeAfter st
    player := p1.dropBefore (keptPage s.walked st) }

/-! ## Frame lock (R184) -/

/-- The positions of the take's Mark entries, in entry order, up to the end of the readable
prefetch. -/
def Part.knownMarks (s : Part) : List Nat :=
  match s.walked.getLast? with
  | some w => w.after.marks
  | none => s.player.context.marks

/-- R184: the position of take mark m, if it is in the prefetch: m entries after the first Mark
whose position is at or after the position at which Playing was entered. -/
def Part.takeMark (s : Part) (m : Nat) : Option Nat :=
  let marks := s.knownMarks
  match marks.findIdx? fun t => decide (s.player.entryTau ≤ t) with
  | none => none
  | some first =>
    if s.player.context.marks.length ≤ first + m then marks[first + m]? else none

/-- R184: frame lock applies to the current cue. -/
def Player.lockApplies (p : Player) : Bool := p.current.lock && decide (p.current.speed = 4096)

/-- R184: the correction a live mark gives. -/
def Part.lockCorrection (s : Part) (m phase : Nat) : Int :=
  let p := s.player
  let prev : Int := if p.firstStep then (p.entryTau : Int) - p.delta else p.tau
  let expected := prev + ((p.delta * phase / 256 : Nat) : Int)
  match s.takeMark m with
  | none => 0
  | some t => clamp (((t : Int) - expected).tdiv 32) (-((p.delta / 16 : Nat) : Int))
      ((p.delta / 16 : Nat) : Int)

/-- R184: a live mark taken in Playing. -/
def Part.liveMarkTaken (s : Part) (phase : Nat) : Part :=
  let p := s.player
  if p.lockGivenUp then s
  else { s with player := { p with
    liveMark := p.liveMark + 1
    correction := if p.lockApplies then s.lockCorrection p.liveMark phase else p.correction } }

/-- R179, R184: a frame mark is handed to the player. -/
def Part.markToPlayer (s : Part) (phase : Nat) : Part :=
  if s.player.state = .playing then s.liveMarkTaken phase
  else if s.player.state = .waiting ∧ s.player.current.trigger = .frame ∧ s.prefetchComplete then
    s.enterPlaying.liveMarkTaken phase
  else s

/-! ## Ending a cue (R185, R186, R189) -/

/-- Each played channel parked with its held value as the named position (R42, R185). -/
def Part.parkPlayed (s : Part) : Shaper :=
  s.shaper.mapChans fun c ch =>
    match s.player.held[c] with
    | some v => if Mask.has s.player.played c then ch.parkAt (s.namedPark c v) else ch
    | none => ch

/-- R185: the cue's end is reached; the next entry is fetched. -/
def Part.endCue (s : Part) : Part :=
  let s1 := { s with shaper := s.parkPlayed }
  (s1.failCue .done).enterFetching

/-- Each played channel on Take parked by R40 without a named position (R189). -/
def Part.parkPlayedHere (s : Part) : Shaper :=
  s.shaper.mapChans fun c ch =>
    if Mask.has s.player.played c && decide (ch.source = .take) then
      ch.parkHere s.shaper.axes[c].amax
    else ch

/-- R186: what the stop notice does to the player. A Playing left before its first step halts at the
position that R180 set on entering it (log 53). -/
def Part.playerStopNotice (s : Part) : Part :=
  let p := s.player
  match p.state with
  | .stopped => s
  | .suspended => s
  | .halted => s
  | .fetching =>
    let s1 := s.dropReads
    { s1 with player := { s1.player with state := .stopped } }
  | .approaching =>
    { s with player := { p with
        state := .halted
        tauHalt := if p.resumed then p.tauHalt else p.tauStart
        goLatch := false } }
  | .waiting =>
    { s with player := { p with
        state := .halted
        tauHalt := if p.resumed then p.tauHalt else p.tauStart
        goLatch := false } }
  | .playing =>
    { s with player := { p with
        state := .halted, tauHalt := p.tau, goLatch := false, correction := 0 } }
  | .closing =>
    let s1 := s.failCue .done
    { s1 with player := { s1.player with state := .stopped } }

/-- Section 10.2: the states in which the entry at the pointer is the current cue. -/
def PlayerState.inHand : PlayerState → Bool
  | .fetching => true | .approaching => true | .waiting => true | .playing => true
  | .halted => true | .closing => true | .stopped => false | .suspended => false

/-- R31 for one entry. -/
def Player.setupCue (p : Player) (i : CueIx) : Cue :=
  let c := p.cues[i]
  if c.owner = .part then
    { c with owner := .controller,
             status := if i = p.pointer ∧ p.state.inHand then .aborted else .notRun }
  else c

/-- R31: the part mode becomes Setup: every part-owned cue is returned, the current one Aborted, the
others NotRun, and the player is Stopped. -/
def Part.returnAllCues (s : Part) : Part :=
  let s1 := s.dropReads
  { s1 with player := { s1.player with
      state := .stopped
      cues := Vector.ofFn fun i : CueIx => s1.player.setupCue i } }

end Sys2Proof.Machine
end

