-- ==== Sys2Proof/Machine/TakeArray.lean ====
section
/-! DEFINITION. The take array controller: which operation is next (R139, R140), what completes and
how (R149 to R155), the start-up scan (R142 to R144) and what a reset leaves in the array. -/

namespace Sys2Proof.Machine

/-! ## Starting operations (R139, R140) -/

/-- The directory slot a job works for. -/
def Job.slot : Job → DirIx
  | .playerRead slot _ => slot
  | .recorderHeader _ h => h.slot
  | .recorderData slot _ _ _ => slot
  | .takeRead _ slot _ => slot
  | .writeHeader _ h => h.slot
  | .writeData _ slot _ _ => slot
  | .lock _ slot _ => slot
  | .retire slot _ => slot
  | .clearRetire slot _ => slot

/-- The data page a job reads or programs. -/
def Job.dataPage : Job → Option Nat
  | .playerRead _ k => some k
  | .recorderData _ k _ _ => some k
  | .takeRead _ _ k => some k
  | .writeData _ _ k _ => some k
  | .recorderHeader _ _ => none
  | .writeHeader _ _ => none
  | .lock _ _ _ => none
  | .retire _ _ => none
  | .clearRetire _ _ => none

/-- The job is a retire program, which is performed on its Retiring slot (R139). -/
def Job.isRetire : Job → Bool
  | .retire _ _ => true
  | .clearRetire _ _ => true
  | _ => false

/-- The job is a page read. -/
def Job.isRead : Job → Bool
  | .playerRead _ _ => true
  | .takeRead _ _ _ => true
  | _ => false

/-- R139: a job is performed unless its slot has become Retiring or Empty by the time it would
start; a data page must also lie in the slot's chain. -/
def TakeArray.performs (t : TakeArray) (j : Job) : Bool :=
  let d := t.directory[j.slot]
  j.isRetire ||
  (decide (d.state ≠ .retiring) && decide (d.state ≠ .empty) &&
    match j.dataPage with
    | none => true
    | some k => (d.locate k).isSome)

/-- R139: a job completed at once as not available. A Take Read is answered WrongState; so are a Page
Write and a Take Lock, whose case cannot arise (log 30). -/
def Part.jobUnavailable (s : Part) (j : Job) : Part :=
  match j with
  | .playerRead _ k => s.playerReadDone k none
  | .takeRead ticket _ _ => s.answer ticket .wrongState []
  | .writeData ticket _ _ _ => s.answer ticket .wrongState []
  | .lock ticket _ _ => s.answer ticket .wrongState []
  | .recorderHeader _ _ => s
  | .recorderData _ _ _ _ => s
  | .writeHeader _ _ => s
  | .retire _ _ => s
  | .clearRetire _ _ => s

/-- A job starts, or is completed as not available. -/
def Part.startJob (s : Part) (j : Job) : Part :=
  if s.array.performs j then { s with array := { s.array with operation := some (.job j false) } }
  else s.jobUnavailable j

/-- R139 with no lists waiting: the suspended erase resumes, or the cleaner starts the erase of the
head of the dirty queue, or the array stays Idle. -/
def TakeArray.startErase (t : TakeArray) : TakeArray :=
  match t.suspended with
  | some bay => { t with operation := some (.erase bay), suspended := none }
  | none =>
    match t.dirty with
    | bay :: rest => { t with operation := some (.erase bay), dirty := rest }
    | [] => t

/-- R139: while no operation is in progress and no scan runs, the oldest waiting request of the
player, then of the recorder, then of the service lane. A job that is not available is completed
and the controller chooses again. -/
def Part.chooseRounds : Nat → Part → Part
  | 0, s => s
  | rounds + 1, s =>
    if s.array.operation ≠ none ∨ s.array.scan ≠ none then s
    else
      match s.array.playerJobs, s.array.recorderJobs, s.array.laneJobs with
      | j :: rest, _, _ =>
        Part.chooseRounds rounds
          (Part.startJob { s with array := { s.array with playerJobs := rest } } j)
      | [], j :: rest, _ =>
        Part.chooseRounds rounds
          (Part.startJob { s with array := { s.array with recorderJobs := rest } } j)
      | [], [], j :: rest =>
        Part.chooseRounds rounds
          (Part.startJob { s with array := { s.array with laneJobs := rest } } j)
      | [], [], [] => { s with array := s.array.startErase }

/-- How many requests wait. -/
def TakeArray.waiting (t : TakeArray) : Nat :=
  t.playerJobs.length + t.recorderJobs.length + t.laneJobs.length

/-- R139: the controller chooses. A round takes one waiting request; a fetch read that is not available
can place one further read for each of the sixteen cues, so the rounds suffice. -/
def Part.choose (s : Part) : Part := Part.chooseRounds (s.array.waiting + 20) s

/-- R139, R140: a request has arrived: it starts if the array is Idle, suspends an erase in
progress, and otherwise waits. -/
def Part.kick (s : Part) : Part :=
  match s.array.operation with
  | some (.job _ _) => s
  | some (.erase bay) =>
    if s.array.waiting = 0 then s
    else Part.choose
      { s with array := { s.array with operation := none, suspended := some bay } }
  | none => s.choose

/-- A request of the service lane placed in its list. -/
def Part.addLaneJobs (s : Part) (js : List Job) : Part :=
  Part.kick { s with array := { s.array with laneJobs := s.array.laneJobs ++ js } }

/-- A request of the recorder placed in its list. -/
def Part.addRecorderJobs (s : Part) (js : List Job) : Part :=
  Part.kick { s with array := { s.array with recorderJobs := s.array.recorderJobs ++ js } }

/-! ## What programs and reads do to the bytes -/

/-- The address of byte 0 of a located data page. -/
def DirectorySlot.dataAddress (d : DirectorySlot) (page : Nat) : Option Nat :=
  (d.locate page).map fun l => pageAddress l.1 l.2

/-- R193: the bytes a program job leaves: a take header at bytes 16–47, a data page, or 0x00 in the
retire byte (64) or the lock byte (65). -/
def TakeArray.programmed (t : TakeArray) (j : Job) : ArrayMemory :=
  match j with
  | .recorderHeader bay h => t.memory.program (pageAddress bay 0 + 16) h.bytes
  | .writeHeader bay h => t.memory.program (pageAddress bay 0 + 16) h.bytes
  | .recorderData slot page _ entries =>
    match t.directory[slot].dataAddress page with
    | some a => t.memory.program a (dataPageBytes entries)
    | none => t.memory
  | .writeData _ slot page entries =>
    match t.directory[slot].dataAddress page with
    | some a => t.memory.program a (dataPageBytes entries)
    | none => t.memory
  | .lock _ _ bay => t.memory.programByte (pageAddress bay 0 + 65) 0#8
  | .retire _ bay => t.memory.programByte (pageAddress bay 0 + 64) 0#8
  | .clearRetire _ bay => t.memory.programByte (pageAddress bay 0 + 64) 0#8
  | .playerRead _ _ => t.memory
  | .takeRead _ _ _ => t.memory

/-- R139: what a page read hands its requester: the 254 entry bytes, when the page's CRC-16 is
correct. -/
def TakeArray.readData (t : TakeArray) (slot : DirIx) (page : Nat) : Option (List Byte) :=
  match t.directory[slot].locate page with
  | none => none
  | some l =>
    let bytes := t.memory.readPage l.1 l.2
    if pageCrcGood bytes then some (bytesAt bytes 0 254) else none

/-- A page read completes (R139, R153). -/
def Part.finishRead (s : Part) (j : Job) (withdrawn : Bool) : Part :=
  match j with
  | .playerRead slot k => if withdrawn then s else s.playerReadDone k (s.array.readData slot k)
  | .takeRead ticket slot k =>
    match s.array.readData slot k with
    | some bytes => s.answer ticket .done bytes
    | none => s.answer ticket .invalid []
  | _ => s

/-! ## Freeing bays (R137, R149, R152) -/

/-- R149: a retire of a Take Erase has completed: its bay is freed, and the next retire of the chain
is placed at the tail of the lane's list, or the slot becomes Empty. -/
def TakeArray.retired (t : TakeArray) (slot : DirIx) (bay : Bay) : TakeArray :=
  let d := t.directory[slot]
  let left := d.bays.filter fun b => decide (b ≠ bay)
  let t1 := { t with dirty := t.dirty ++ [bay] }
  match left with
  | [] => t1.setSlot slot DirectorySlot.reset
  | next :: _ =>
    { t1.setSlot slot { d with bays := left } with laneJobs := t1.laneJobs ++ [.retire slot next] }

/-- The Retiring slots, ascending, each with its chain-0 bay. -/
def TakeArray.retiring (t : TakeArray) : List (DirIx × Bay) :=
  (List.finRange 64).filterMap fun i =>
    if t.directory[i].state = .retiring then t.directory[i].bays.head?.map fun b => (i, b) else none

/-- R152: the last retire of a clear has completed: every Retiring slot's bays are freed, slot by
slot, and the slots become Empty. -/
def TakeArray.endClear (t : TakeArray) : TakeArray :=
  { t with
    dirty := t.dirty ++ (List.finRange 64).flatMap fun i =>
      if t.directory[i].state = .retiring then t.directory[i].bays else []
    directory := Vector.ofFn fun i : DirIx =>
      if t.directory[i].state = .retiring then DirectorySlot.reset else t.directory[i]
    clearing := false }

/-- R152: a retire of a clear has completed: the next slot's retire, or the end of the clear. -/
def TakeArray.clearRetired (t : TakeArray) (slot : DirIx) : TakeArray :=
  match t.retiring.find? fun p => decide (slot.val < p.1.val) with
  | some p => { t with laneJobs := t.laneJobs ++ [.clearRetire p.1 p.2] }
  | none => t.endClear

/-- R155: the data program of a Page Write has completed: the slot counts the page in. -/
def TakeArray.pageWritten (t : TakeArray) (slot : DirIx) (entries : List Byte) : TakeArray :=
  let d := t.directory[slot]
  let es := (parseEntries (Mask.size d.info.mask) entries).getD []
  t.setSlot slot { d.countIn es with dataPages := d.dataPages + 1 }

/-- R150: the lock program of a slot has completed. -/
def TakeArray.lockDone (t : TakeArray) (slot : DirIx) : TakeArray :=
  t.setSlot slot { t.directory[slot] with locked := true, lockPending := false }

/-! ## The start-up scan (R142 to R144) -/

/-- The class of a bay by its header page (R142). -/
inductive HeaderClass where
  | dirty
  | erased
  | owned (header : TakeHeader) (lockSet : Bool)
  deriving DecidableEq, Repr

/-- The take header of a header page, if it is valid. -/
def headerOfPage (page : List Byte) : Option TakeHeader := TakeHeader.ofBytes (bytesAt page 16 32)

/-- R142: the table of header classes, read in its order. -/
def classOfPage (page : List Byte) : HeaderClass :=
  if byteAt page 0 ≠ 0xA5#8 then .dirty
  else if (page.drop 1).all (fun b => b == erasedByte) then .erased
  else if byteAt page 64 ≠ erasedByte then .dirty
  else
    match headerOfPage page with
    | some h => .owned h (byteAt page 65 ≠ erasedByte)
    | none => .dirty

/-- The larger of the serials found (R143). -/
def maxSerialOf (old : Option (BitVec 32)) (h : Option TakeHeader) : Option (BitVec 32) :=
  match old, h with
  | none, none => none
  | some x, none => some x
  | none, some h => some h.info.serial
  | some x, some h => some (if x.toNat < h.info.serial.toNat then h.info.serial else x)

/-- R142: one header page read. -/
def Scan.header (sc : Scan) (bay : Bay) (page : List Byte) : Scan :=
  let sc1 := { sc with maxSerial := maxSerialOf sc.maxSerial (headerOfPage page) }
  match classOfPage page with
  | .dirty => sc1
  | .erased => { sc1 with erased := sc1.erased ++ [bay] }
  | .owned h lockSet => { sc1 with owned := sc1.owned ++ [⟨bay, h, lockSet⟩] }

/-- R143: the bays of a chain from an index upward without a gap; `fuel` bounds the chain. Owned
bays stand in ascending bay number, so of two with the same chain index the lower is taken. -/
def chainFrom (owned : List ScannedBay) (h : TakeHeader) : Nat → Nat → List Bay
  | 0, _ => []
  | fuel + 1, index =>
    match owned.find? fun b => decide (b.header = { h with chain := index }) with
    | none => []
    | some b => b.bay :: chainFrom owned h fuel (index + 1)

/-- R143: the bay that gives a serial's take: the lowest Owned bay of the serial with chain index
0. -/
def chainZero (owned : List ScannedBay) (serial : BitVec 32) : Option ScannedBay :=
  owned.find? fun b => decide (b.header.info.serial = serial) && decide (b.header.chain = 0)

/-- R143: the chain-0 bays of the surviving takes of a slot: of two serials, the larger keeps it. -/
def slotHolder (owned : List ScannedBay) (slot : DirIx) : Option ScannedBay :=
  owned.foldl (fun best b =>
    if b.header.slot = slot ∧ chainZero owned b.header.info.serial = some b then
      match best with
      | none => some b
      | some x => if x.header.info.serial.toNat < b.header.info.serial.toNat then some b else some x
    else best) none

/-- R143: the directory slot of a surviving take, its pages not yet read. -/
def scannedSlot (owned : List ScannedBay) (b : ScannedBay) : DirectorySlot :=
  { DirectorySlot.reset with
    state := .truncated
    info := b.header.info
    bays := chainFrom owned b.header 512 0
    locked := b.lockSet
    endReason := .scan }

/-- R143: every surviving take fills its slot. -/
def Scan.directory (sc : Scan) : Vector DirectorySlot 64 :=
  Vector.ofFn fun i : DirIx =>
    match slotHolder sc.owned i with
    | some b => scannedSlot sc.owned b
    | none => DirectorySlot.reset

/-- R144: the scan is complete: the erased queue in ascending bay number, every other bay that no
slot holds in the dirty queue in ascending bay number. -/
def TakeArray.scanDone (t : TakeArray) (sc : Scan) : TakeArray :=
  let held := (List.finRange 64).flatMap fun i => t.directory[i].bays
  { t with
    erased := sc.erased
    dirty := (List.finRange 512).filter fun b => !sc.erased.contains b && !held.contains b
    serial := match sc.maxSerial with
      | some x => x + 1
      | none => 0
    scanComplete := true
    scan := none }

/-- R144: the next take's first data page, or the end of the scan. -/
def TakeArray.scanNext (t : TakeArray) (sc : Scan) : List DirIx → TakeArray
  | [] => t.scanDone sc
  | slot :: rest => { t with scan := some { sc with phase := .pages slot 0 false rest } }

/-- R143: after the last header page: the directory is filled and the first take is read. -/
def TakeArray.scanHeadersDone (t : TakeArray) (sc : Scan) : TakeArray :=
  let t1 := { t with directory := sc.directory }
  t1.scanNext sc ((List.finRange 64).filter fun i => decide (t1.directory[i].state ≠ .empty))

/-- R144: a data page is good: programmed, its CRC-16 correct, its entries readable (R193). -/
def goodEntries (channels : Nat) (page : List Byte) : Option (List Entry) :=
  if pageUnprogrammed page ∨ !pageCrcGood page then none
  else parseEntries channels (bytesAt page 0 254)

/-- R144: the take of a slot ends before its first page that is not good. Bays wholly after the last
good page, but never the chain-0 bay, leave the list. -/
def DirectorySlot.scanned (d : DirectorySlot) (lastHasEnd : Bool) : DirectorySlot :=
  { d with
    state := if lastHasEnd then .closed else .truncated
    bays := d.bays.take (max 1 ((d.dataPages + 254) / 255)) }

/-- R142 to R144: one read of the scan completes. -/
def TakeArray.scanRead (t : TakeArray) (sc : Scan) : TakeArray :=
  match sc.phase with
  | .headers next =>
    if h : next < 512 then
      let sc1 := sc.header ⟨next, h⟩ (t.memory.readPage ⟨next, h⟩ 0)
      if next + 1 = 512 then t.scanHeadersDone sc1
      else { t with scan := some { sc1 with phase := .headers (next + 1) } }
    else t.scanHeadersDone sc
  | .pages slot page lastHasEnd rest =>
    let d := t.directory[slot]
    let found := match d.locate page with
      | none => none
      | some l => goodEntries (Mask.size d.info.mask) (t.memory.readPage l.1 l.2)
    match found with
    | none => (t.setSlot slot (d.scanned lastHasEnd)).scanNext sc rest
    | some es =>
      let d1 := { d.countIn es with dataPages := d.dataPages + 1 }
      if d.bays.length * 255 ≤ page + 1 then
        (t.setSlot slot (d1.scanned (hasEnd es))).scanNext sc rest
      else
        { t.setSlot slot d1 with
          scan := some { sc with phase := .pages slot (page + 1) (hasEnd es) rest } }

/-! ## What a reset leaves of an operation (R142, R155, R157) -/

/-- Fresh bytes of unknown value. -/
def freshBytes (count n : Nat) : List Byte := (List.range n).map fun i => Config.freeByte (count + i)

/-- R155: a data program cut short leaves its page failing its CRC-16, or unprogrammed. -/
def cutData (m : ArrayMemory) (a count : Nat) : ArrayMemory :=
  let page := freshBytes count 256
  if pageCrcGood page then m else m.putBytes a page

/-- R142: a header program cut short leaves a header with a bad CRC-16. Where the unknown bytes would
be a valid header or an erased one, the intended header with its CRC-16 inverted stands for
them. -/
def cutHeader (m : ArrayMemory) (bay : Bay) (h : TakeHeader) (count : Nat) : ArrayMemory :=
  let bytes := freshBytes count 32
  if TakeHeader.ofBytes bytes = none ∧ fieldNat bytes 30 2 ≠ (crc16 (bytesAt bytes 0 30)).toNat ∧
      bytes.any (fun b => b != erasedByte) then
    m.putBytes (pageAddress bay 0 + 16) bytes
  else
    m.putBytes (pageAddress bay 0 + 16) (h.body ++ leBytes 2 (~~~ crc16 h.body).toNat)

/-- R142: a retire or lock program cut short leaves its byte as it was, or changed. -/
def cutByte (m : ArrayMemory) (a count : Nat) : ArrayMemory :=
  m.put a (programmedByte (m.read a) (Config.freeByte count))

/-- R133: a bay whose erase has begun and not completed has no marker; the rest of its header page is
unknown, and so is every byte it held (log 11). -/
def cutErase (m : ArrayMemory) (bay : Bay) (count : Nat) : ArrayMemory :=
  let a := pageAddress bay 0
  let marker := if Config.freeByte count = 0xA5#8 then erasedByte else Config.freeByte count
  let m1 : ArrayMemory := ⟨m.cells.filterMap fun c =>
    if a ≤ c.1 ∧ c.1 < a + 65536 then
      if Config.freeByte (count + c.1) = erasedByte then none
      else some (c.1, Config.freeByte (count + c.1))
    else some c⟩
  m1.putBytes a (marker :: freshBytes (count + 1) 255)

/-- The bytes that a reset finds after the operation in progress was abandoned. -/
def TakeArray.cutOperation (t : TakeArray) (count : Nat) : ArrayMemory :=
  match t.operation with
  | none => t.memory
  | some (.erase bay) => cutErase t.memory bay count
  | some (.job j _) =>
    match j with
    | .recorderHeader bay h => cutHeader t.memory bay h count
    | .writeHeader bay h => cutHeader t.memory bay h count
    | .recorderData slot page _ _ =>
      match t.directory[slot].dataAddress page with
      | some a => cutData t.memory a count
      | none => t.memory
    | .writeData _ slot page _ =>
      match t.directory[slot].dataAddress page with
      | some a => cutData t.memory a count
      | none => t.memory
    | .lock _ _ bay => cutByte t.memory (pageAddress bay 0 + 65) count
    | .retire _ bay => cutByte t.memory (pageAddress bay 0 + 64) count
    | .clearRetire _ bay => cutByte t.memory (pageAddress bay 0 + 64) count
    | .playerRead _ _ => t.memory
    | .takeRead _ _ _ => t.memory

/-- How far the counter of fresh values moves over a reset: past every value it can have used. -/
def resetFree : Nat := 2 * arraySize

/-- The bytes that a reset finds, the suspended erase included. -/
def TakeArray.afterCut (t : TakeArray) (count : Nat) : ArrayMemory :=
  let m := t.cutOperation count
  match t.suspended with
  | none => m
  | some bay => cutErase m bay (count + arraySize)

/-- R157 and the other blocks' reset rules: the whole part reset, the array's bytes kept but for what
was cut short, the time base running on, the lines read as given. -/
def Part.resetAll (s : Part) (eStopOpen guardOpen : Bool) : Part :=
  { Part.reset with
    now := s.now
    seq := Sequencer.reset eStopOpen guardOpen
    array := TakeArray.reset (s.array.afterCut s.freeCount)
    portA := s.portA
    portB := s.portB
    freeCount := s.freeCount + resetFree }

end Sys2Proof.Machine
end

