-- ==== Sys2Proof/Machine/Recorder.lean ====
section
/-! DEFINITION. The recorder: the record clock (R160, R161), samples and marks (R162, R163), pages and
stalls (R164 to R166) and closing (R168, R169). -/

namespace Sys2Proof.Machine

/-! ## The buffers -/

/-- A buffer of the recorder. -/
def Recorder.buffer (r : Recorder) : BufferId → PageBuffer
  | .a => r.bufferA
  | .b => r.bufferB

/-- A buffer replaced. -/
def Recorder.setBuffer (r : Recorder) (i : BufferId) (b : PageBuffer) : Recorder :=
  match i with
  | .a => { r with bufferA := b }
  | .b => { r with bufferB := b }

/-- The other buffer. -/
def BufferId.other : BufferId → BufferId
  | .a => .b
  | .b => .a

/-- The Filling buffer; at most one is (R158). -/
def Recorder.filling (r : Recorder) : Option BufferId :=
  if r.bufferA.state = .filling then some .a
  else if r.bufferB.state = .filling then some .b
  else none

/-- The directory slot of the recording. -/
def Part.recordingSlot (s : Part) : Option (DirIx × DirectorySlot) :=
  s.recorder.slot.map fun i => (i, s.array.directory[i])

/-- The directory slot of the recording changed. -/
def Part.onSlot (s : Part) (f : DirectorySlot → DirectorySlot) : Part :=
  match s.recorder.slot with
  | none => s
  | some i => { s with array := s.array.setSlot i (f s.array.directory[i]) }

/-- R164: entries placed in the Filling buffer, each directly after the one before. -/
def Recorder.place (r : Recorder) (es : List Entry) : Recorder :=
  match r.filling with
  | none => r
  | some i =>
    let b := r.buffer i
    r.setBuffer i { b with entries := b.entries ++ es.flatMap Entry.bytes }

/-- R162: the pending hold as a Hold entry, if it is not 0. -/
def Recorder.holdEntries (r : Recorder) : List Entry :=
  if r.pendingHold = 0 then [] else [.hold r.pendingHold]

/-- R164: the headroom of a take with c channels. -/
def headroom (c : Nat) : Nat := 16 + max 16 (8 + 4 * c)

/-! ## Closing (R168, R169) -/

/-- R168: a reserved bay leaves the slot's bay list and joins the tail of the erased queue. -/
def Part.returnReserved (s : Part) : Part :=
  match s.recorder.slot, s.recorder.reserved with
  | some i, some bay =>
    let d := s.array.directory[i]
    let t := s.array.setSlot i { d with bays := d.bays.filter fun b => decide (b ≠ bay) }
    { s with array := { t with erased := t.erased ++ [bay] },
             recorder := { s.recorder with reserved := none } }
  | _, _ => s

/-- R168: the entries that end a take: the pending hold, the Gap of a stall that missed samples, and
End. -/
def Recorder.endEntries (r : Recorder) : List Entry :=
  r.holdEntries ++
  (if r.state = .stalled ∧ r.stallCount ≠ 0 then [.gap r.stallCount] else []) ++ [.finish]

/-- R168: a recording in Recording or Stalled is closed with an end reason: the recorder becomes Closing,
the end of the take is written into the Filling page and the page is queued, and a reserved bay is given
back. A Gap placed there sets the whole-sample flag, as every Gap does (R162). -/
def Part.closeRecording (s : Part) (reason : EndReason) : Part :=
  let r := s.recorder.place s.recorder.endEntries
  let r1 := { r with
    state := .closing, pendingHold := 0, stallCount := 0, closeReason := reason
    whole := r.whole || (decide (r.state = .stalled) && decide (r.stallCount ≠ 0)) }
  match s.recorder.slot, r.filling with
  | some slot, some i =>
    let b := r.buffer i
    Part.addRecorderJobs
      (Part.returnReserved { s with recorder := r1.setBuffer i { b with state := .queued } })
      [.recorderData slot (b.page.getD 0) i b.entries]
  | _, _ => Part.returnReserved { s with recorder := r1 }

/-- R169: an Armed recorder is closed: its chain-0 bay goes back to the erased queue, the slot
becomes Empty and the recorder Idle in one action. -/
def Part.closeArmed (s : Part) : Part :=
  match s.recorder.slot with
  | none => { s with recorder := { s.recorder with state := .idle } }
  | some i =>
    let d := s.array.directory[i]
    let t := s.array.setSlot i DirectorySlot.reset
    { s with array := { t with erased := t.erased ++ d.bays },
             recorder := { s.recorder with state := .idle } }

/-- R87, R168, R169: the recorder is told that the stop state has left Running. -/
def Part.recorderStopNotice (s : Part) : Part :=
  match s.recorder.state with
  | .recording => s.closeRecording .stop
  | .stalled => s.closeRecording .stop
  | .armed => s.closeArmed
  | .idle => s
  | .closing => s

/-- R168: the last program of a closing take has completed. -/
def Part.finishClosing (s : Part) : Part :=
  if s.recorder.state = .closing ∧ s.array.recorderJobs = [] then
    let reason := s.recorder.closeReason
    let s1 := s.onSlot fun d => { d with state := .closed, endReason := reason }
    { s1 with recorder := { s1.recorder with state := .idle } }
  else s

/-! ## Turning the page (R165, R166) -/

/-- R165: page k + 1 starts a new bay. -/
def needsBay (page : Nat) : Bool := (page + 1) % 255 == 0

/-- R165: the take header of the reserved bay, with the chain index of its place in the bay list. -/
def reservedHeader (slot : DirIx) (d : DirectorySlot) : TakeHeader :=
  { slot := slot, chain := d.bays.length - 1, info := d.info }

/-- R165: the turn of a page, made in one action: the Filling page is queued, a reserved bay's
header is requested next, the other buffer opens. The entries open the new page. -/
def Part.makeTurn (s : Part) (i : BufferId) (slot : DirIx) (opening : List Entry) : Part :=
  let b := s.recorder.buffer i
  let page := b.page.getD 0
  let header := match s.recorder.reserved with
    | some bay => [Job.recorderHeader bay (reservedHeader slot s.array.directory[slot])]
    | none => []
  let r1 := s.recorder.setBuffer i { b with state := .queued }
  let r2 := r1.setBuffer i.other { state := .filling, page := some (page + 1), entries := [] }
  let r3 := { r2 with reserved := none, nextPage := page + 2 }
  Part.addRecorderJobs { s with recorder := r3.place opening }
    ([.recorderData slot page i b.entries] ++ header)

/-- R165 step 1, R136: the head of the erased queue is claimed and held as the reserved bay. -/
def Part.reserveBay (s : Part) (slot : DirIx) : Part :=
  match s.array.claim slot with
  | none => s
  | some (bay, t) => { s with array := t, recorder := { s.recorder with reserved := some bay } }

/-- R165: whether the turn still waits for a bay, or for the other buffer. -/
def Part.turnWaits (s : Part) (i : BufferId) (page : Nat) : Bool :=
  (needsBay page && s.recorder.reserved.isNone) ||
  decide ((s.recorder.buffer i.other).state = .queued)

/-- R165: a page short of headroom is turned, or the recorder stalls, or the recording is closed
Full. -/
def Part.turnPage (s : Part) : Part :=
  match s.recorder.filling, s.recorder.slot with
  | some i, some slot =>
    let page := (s.recorder.buffer i).page.getD 0
    let wants := needsBay page && s.recorder.reserved.isNone
    if wants && s.array.erased.isEmpty && s.array.dirty.isEmpty then s.closeRecording .full
    else
      let s1 := if wants then s.reserveBay slot else s
      if s1.turnWaits i page then { s1 with recorder := { s1.recorder with state := .stalled } }
      else s1.makeTurn i slot []
  | _, _ => s

/-- R164: after an event has placed its entries, the page is turned when the bytes left on it are
fewer than the headroom. -/
def Part.checkRoom (s : Part) : Part :=
  match s.recorder.filling, s.recordingSlot with
  | some i, some (_, d) =>
    if 254 - (s.recorder.buffer i).entries.length < headroom (Mask.size d.info.mask) then s.turnPage
    else s
  | _, _ => s

/-- R166: a stall ends when the conditions of R165 are met: the turn is made, the new page opens
with the pending hold and a Gap of the stall count. -/
def Part.endStall (s : Part) : Part :=
  if s.recorder.state = .stalled then
    match s.recorder.filling, s.recorder.slot with
    | some i, some slot =>
      let page := (s.recorder.buffer i).page.getD 0
      if s.turnWaits i page then s
      else
        let r := s.recorder
        let opening := r.holdEntries ++ [.gap r.stallCount]
        let r1 := { r with state := .recording, pendingHold := 0, stallCount := 0, whole := true }
        Part.makeTurn { s with recorder := r1 } i slot opening
    | _, _ => s
  else s

/-- R166: a bay has joined the erased queue while the recorder waits for one: it is claimed in the
same action. -/
def Part.bayForStall (s : Part) : Part :=
  if s.recorder.state = .stalled then
    match s.recorder.filling, s.recorder.slot with
    | some i, some slot =>
      let page := (s.recorder.buffer i).page.getD 0
      if needsBay page && s.recorder.reserved.isNone then (s.reserveBay slot).endStall else s
    | _, _ => s
  else s

/-- R167: a data program of the recorder has completed. -/
def Part.recorderPageDone (s : Part) (slot : DirIx) (i : BufferId) : Part :=
  let d := s.array.directory[slot]
  let b := s.recorder.buffer i
  { s with array := s.array.setSlot slot { d with dataPages := d.dataPages + 1 },
           recorder := s.recorder.setBuffer i { b with state := .free } }

/-! ## The record clock (R160, R161) -/

/-- R160: the clock starts: page 0 opens and the chain-0 header program is requested. -/
def Part.startClock (s : Part) : Part :=
  match s.recorder.slot with
  | none => s
  | some slot =>
    let s1 := s.onSlot fun d => { d with info := { d.info with startFrame := s.sync.frameCount } }
    let d := s1.array.directory[slot]
    let r := { s1.recorder with
      state := .recording
      clock := 0
      bufferA := { state := .filling, page := some 0, entries := [] }
      nextPage := 1 }
    let s2 := { s1 with recorder := r }
    match d.bays.head? with
    | some bay => s2.addRecorderJobs [.recorderHeader bay ⟨slot, 0, d.info⟩]
    | none => s2

/-- R160, R161: the recorder at the serving of a served cycle. -/
def Part.recorderServing (s : Part) : Part :=
  match s.recorder.state with
  | .armed =>
    match s.recorder.trigger with
    | .immediate => s.startClock
    | .frame => if s.recorder.frameSeen then s.startClock else s
    | .cue => s
  | .recording => { s with recorder := { s.recorder with clock := s.recorder.clock + 1 } }
  | .stalled => { s with recorder := { s.recorder with clock := s.recorder.clock + 1 } }
  | .idle => s
  | .closing => s

/-- R160, R181: the player's first step under a cue whose record-with flag is set. -/
def Part.tellRecorder (s : Part) : Part :=
  if s.recorder.state = .armed ∧ s.recorder.trigger = .cue then s.startClock else s

/-! ## Samples and marks (R161 to R163) -/

/-- R161: the sample: one value per channel of the mask, in ascending slot order. A lens channel in Off,
for which the table of R161 has no row, gives the shaped count that R52 hands on (log 52). -/
def Part.sampleValues (s : Part) (mask : Mask) : List Int :=
  (Mask.slots mask).map fun c =>
    match lensOf c with
    | none => countOf s.shaper.chans[c].p
    | some l =>
      if s.lens.chans[l].mode.physical then (s.lens.chans[l].physical : Int)
      else countOf s.shaper.chans[c].p

/-- R162: a kept sample: folded into the pending hold, or stored whole. -/
def Recorder.keep (r : Recorder) (values : List Int) : Recorder :=
  if !r.whole && r.previous == values then
    if r.pendingHold + 1 = 65535 then { r.place [.hold 65535] with pendingHold := 0 }
    else { r with pendingHold := r.pendingHold + 1 }
  else
    { r.place (r.holdEntries ++ [.sample values]) with
      pendingHold := 0, previous := values, whole := false }

/-- R166: a missed sample. -/
def Recorder.miss (r : Recorder) : Recorder :=
  { r with
    stallCount := r.stallCount + 1
    missed := if r.missed = 65535 then r.missed else r.missed + 1
    overflow := r.overflow || r.missed == 65535 }

/-- R161: the recorder when the shaper and the lens mapper have handed on their results. -/
def Part.sampleInstant (s : Part) : Part :=
  if s.recorder.state = .recording ∨ s.recorder.state = .stalled then
    match s.recordingSlot with
    | none => s
    | some (_, d) =>
      if s.recorder.clock % d.info.divisor ≠ 0 then s
      else if 4294967295 < s.recorder.clock / d.info.divisor then s.closeRecording .full
      else if s.recorder.state = .stalled then
        { s.onSlot (fun d => { d with gaps := d.gaps + 1 }) with recorder := s.recorder.miss }
      else
        let s1 := s.onSlot fun d => { d with samples := d.samples + 1 }
        Part.checkRoom { s1 with recorder := s.recorder.keep (s.sampleValues d.info.mask) }
  else s

/-- R163: the position of a mark, in sample indices scaled by 65,536. -/
def markPosition (clock phase divisor : Nat) : Nat := (clock * 256 + phase) * 256 / divisor

/-- R160, R163: a frame mark is handed to the recorder. -/
def Part.markToRecorder (s : Part) (phase : Nat) : Part :=
  match s.recorder.state with
  | .recording =>
    match s.recordingSlot with
    | none => s
    | some (_, d) =>
      let t := markPosition s.recorder.clock phase d.info.divisor
      let r := s.recorder
      let es := r.holdEntries ++ [.mark (t % 65536) s.sync.frameCount.toNat (t / 65536)]
      let s1 := s.onSlot fun d => { d with marks := d.marks + 1 }
      Part.checkRoom { s1 with recorder := { r.place es with pendingHold := 0 } }
  | .armed => { s with recorder := { s.recorder with frameSeen := true } }
  | .idle => s
  | .stalled => s
  | .closing => s

/-- R153: the recorder holds the page of an index in a buffer. -/
def Recorder.holds (r : Recorder) (page : Nat) : Bool :=
  decide (r.bufferA.page = some page) || decide (r.bufferB.page = some page)

end Sys2Proof.Machine
end

