-- ==== Sys2Proof/Machine/Flags.lean ====
section
/-! DEFINITION. The flags the part computes: the drive flags (R83), the cause set, and the status block
with its flag bytes (R17, section 11.2). -/

namespace Sys2Proof.Machine

/-! ## The drive flags (R83) -/

/-- R83: torque enable of a stop state. -/
def StopState.torque : StopState → Bool
  | .safeOff => false
  | .arming => true | .holding => true | .running => true | .ramping => true | .settling => true
  | .braking => true

/-- R83: brake release of a stop state, for an axis with or without a brake. -/
def StopState.release (st : StopState) (readiness brakePresent : Bool) : Bool :=
  match st with
  | .safeOff => false
  | .arming => readiness
  | .holding => true | .running => true | .ramping => true | .settling => true
  | .braking => !brakePresent

/-- R83: the torque enable flag the sequencer holds for a motion axis. -/
def Part.torqueFlag (s : Part) (a : Axis) : Bool :=
  s.shaper.axes[Axis.slot a].present && s.seq.state.torque

/-- R83: the brake release flag the sequencer holds for a motion axis. -/
def Part.releaseFlag (s : Part) (a : Axis) : Bool :=
  s.shaper.axes[Axis.slot a].present &&
    s.seq.state.release s.seq.readiness s.shaper.axes[Axis.slot a].brakePresent

/-! ## The cause set (R80) -/

/-- The cause set with one kind joined. -/
def joinCause (set : BitVec 16) (kind : CauseKind) : BitVec 16 :=
  set ||| BitVec.ofNat 16 (2 ^ kind.bit)

/-- R80: a cause recorded: its kind joins the set, and it is the first cause if there is none. -/
def Sequencer.record (q : Sequencer) (kind : CauseKind) (detail : Nat) : Sequencer :=
  { q with
    causes := joinCause q.causes kind
    firstCause := match q.firstCause with
      | none => some ⟨kind, detail⟩
      | some f => some f }

/-! ## The status block (R17) -/

/-- R116, section 6.1: the target-stale flag of a lens channel; clear but for the focus channel. -/
def LensMapper.targetStale (m : LensMapper) (l : LensIx) : Bool := l.val == 0 && m.target.stale

/-- The lens flags byte. -/
def LensMapper.flags (m : LensMapper) : BitVec 8 :=
  byteOf (bitsOf (((List.finRange 4).map fun l => m.targetStale l) ++
    ((List.finRange 4).map fun l : LensIx => m.chans[l].staged)))

/-- The general flags byte. -/
def Part.generalFlags (s : Part) : BitVec 8 :=
  byteOf (bitsOf [s.zone.recovery, s.array.scanComplete, s.array.freeze, s.recorder.overflow])

/-- The code of the array operation state (section 8.3). -/
def TakeArray.operationCode (t : TakeArray) : Nat :=
  if t.scanning then 0
  else match t.operation with
    | none => 1
    | some (.job j _) => if j.isRead then 2 else 3
    | some (.erase _) => 4

/-- The array operation state byte: the code, and bit 7 while an erase is suspended. -/
def TakeArray.stateByte (t : TakeArray) : BitVec 8 :=
  byteOf (t.operationCode + if t.suspended.isSome then 128 else 0)

/-- The cue owner map. -/
def Player.ownerMap (p : Player) : BitVec 16 :=
  BitVec.ofNat 16 (bitsOf ((List.finRange 16).map fun i : CueIx => decide (p.cues[i].owner = .part)))

/-- R17: the status block composed from the part as it stands. -/
def Part.statusBlock (s : Part) : StatusBlock :=
  { mode := s.lane.mode
    stopState := s.seq.state
    firstCause := s.seq.firstCause
    causes := s.seq.causes
    sources := Vector.ofFn fun c => s.shaper.chans[c].source
    sigma := s.shaper.sigma
    currentHits := s.zone.currentHits
    stopHits := s.zone.stopHits
    recorder := s.recorder.state
    recordingSlot := s.recorder.slot
    missed := s.recorder.missed
    player := s.player.state
    pointer := s.player.pointer
    owners := s.player.ownerMap
    sync := s.sync.state
    lensFlags := s.lens.flags
    frameCount := s.sync.frameCount
    depth := s.lane.queue.length
    lateCount := s.gateway.lateCount
    badCount := s.gateway.badCount
    dropped := s.lane.dropped
    generalFlags := s.generalFlags
    arrayState := s.array.stateByte
    dirtyLength := s.array.dirty.length
    erasedLength := s.array.erased.length }

end Sys2Proof.Machine
end

