-- ==== Sys2Proof/Machine/Zones.lean ====
section
/-! DEFINITION. The zone monitor: the tips (R59), the hit test (R71), ageing (R68), the speed scale
(R74) and the causes of the zone tests (R73). -/

namespace Sys2Proof.Machine

/-- M(a, s) of R59: a × s / 65,536 rounded half away from zero. -/
def scaled (a s : Int) : Int := divRound (a * s) 65536

/-- R59: the tip from the track, swing, lift and reach counts. -/
def tipOf (g : Geometry) (track swing lift reach : Int) : Point :=
  let theta := swing + g.swing
  let phi := lift + g.lift
  let lr := g.lb + reach
  let rho := scaled lr (cosine phi)
  { x := clampCoord (g.x0 + track + scaled rho (cosine theta)),
    y := clampCoord (g.y0 + scaled rho (sine theta)),
    z := clampCoord (g.z0 + scaled lr (sine phi)) }

/-- R52, R59: the shaped count of a kinematic slot, 0 where the channel is absent. -/
def Shaper.shapedCount (sh : Shaper) (c : Slot) : Int :=
  if sh.axes[c].present then countOf sh.chans[c].p else 0

/-- R52: the count of a kinematic slot's stopping extent at its Astop, or at its latched ramp
deceleration while it is on Stop. -/
def Shaper.stopCount (sh : Shaper) (c : Slot) : Int :=
  if sh.axes[c].present then
    countOf (stoppingExtent sh.chans[c].p sh.chans[c].v
      (if sh.chans[c].source = .stop then sh.chans[c].rampDecel else sh.axes[c].astop))
  else 0

/-- R61: the current tip. -/
def currentTipOf (g : Geometry) (sh : Shaper) : Point :=
  tipOf g (sh.shapedCount 0) (sh.shapedCount 1) (sh.shapedCount 2) (sh.shapedCount 3)

/-- R61: the stop tip. -/
def stopTipOf (g : Geometry) (sh : Shaper) : Point :=
  tipOf g (sh.stopCount 0) (sh.stopCount 1) (sh.stopCount 2) (sh.stopCount 3)

/-- A coordinate lies from lo to hi. -/
def within (x lo hi : Int) : Bool := decide (lo ≤ x) && decide (x ≤ hi)

/-- A point lies in a box with each face moved outward by m (inward for a negative m). -/
def inBox (p : Point) (b : Box) (m : Int) : Bool :=
  within p.x (b.xmin - m) (b.xmax + m) && within p.y (b.ymin - m) (b.ymax + m) &&
  within p.z (b.zmin - m) (b.zmax + m)

/-- R71: a point hits an entry. -/
def ZoneEntry.hitBy (z : ZoneEntry) (p : Point) : Bool :=
  match z.state with
  | .unused => false
  | _ =>
    match z.kind with
    | .keepOut => inBox p z.effective z.margin
    | .slow => inBox p z.effective z.margin
    | .keepIn => !inBox p z.effective (-(z.margin : Int))

/-- R71: the mask of the entries that a point hits. -/
def ZoneMonitor.hits (z : ZoneMonitor) (p : Point) : BitVec 16 :=
  BitVec.ofNat 16 (bitsOf ((List.finRange 16).map fun i => z.zones[i].hitBy p))

/-- R71, R72: both masks worked out from the tips in the tip record. -/
def ZoneMonitor.remask (z : ZoneMonitor) : ZoneMonitor :=
  { z with currentHits := z.hits z.currentTip, stopHits := z.hits z.stopTip }

/-- R68: one step outward of every face, each saturating at the coordinate limit on its side. -/
def growBox (b : Box) (g : Nat) : Box :=
  { xmin := max (-stageLimit) (b.xmin - g), xmax := min stageLimit (b.xmax + g),
    ymin := max (-stageLimit) (b.ymin - g), ymax := min stageLimit (b.ymax + g),
    zmin := max (-stageLimit) (b.zmin - g), zmax := min stageLimit (b.zmax + g) }

/-- R68: a Live entry ages, and grows once its age is above its refresh limit. -/
def ZoneEntry.grow (z : ZoneEntry) : ZoneEntry :=
  match z.state with
  | .live =>
    let age := bumpAge z.age
    { z with age := age,
             effective := if z.refresh < age then growBox z.effective z.growth else z.effective }
  | _ => z

/-- R68 over the whole table. -/
def ZoneMonitor.ageZones (z : ZoneMonitor) : ZoneMonitor :=
  { z with zones := Vector.ofFn fun i : ZoneIx => z.zones[i].grow }

/-- R61, R70 stages 1 to 3. -/
def ZoneMonitor.update (z : ZoneMonitor) (sh : Shaper) : ZoneMonitor :=
  ({ z.ageZones with currentTip := currentTipOf z.geometry sh,
                     stopTip := stopTipOf z.geometry sh }).remask

/-- An entry is KeepOut or KeepIn. -/
def ZoneKind.bars : ZoneKind → Bool
  | .keepOut => true | .keepIn => true | .slow => false

/-- A mask holds a KeepOut or KeepIn entry. -/
def ZoneMonitor.barred (z : ZoneMonitor) (m : BitVec 16) : Bool :=
  (List.finRange 16).any fun i => m.getLsbD i.val && z.zones[i].kind.bars

/-- R75: the current tip is clear. -/
def ZoneMonitor.clear (z : ZoneMonitor) : Bool := !z.barred z.currentHits

/-- R74: the least scale of the Slow entries the stop tip hits, or 4,096, and at most 256 while the
recovery flag is set. -/
def ZoneMonitor.speedScale (z : ZoneMonitor) : Nat :=
  let slow := (List.finRange 16).foldl
    (fun acc i => if z.stopHits.getLsbD i.val && decide (z.zones[i].kind = .slow)
      then min acc z.zones[i].scale else acc) 4096
  if z.recovery then min slow 256 else slow

/-- R78 stage 5: the recovery flag clears when neither mask holds a KeepOut or KeepIn entry. -/
def ZoneMonitor.checkRecovery (z : ZoneMonitor) : ZoneMonitor :=
  { z with recovery := z.recovery && (z.barred z.currentHits || z.barred z.stopHits) }

/-- R73: the causes of the zone tests, in ascending index order; none while the recovery flag is
set. -/
def ZoneMonitor.causes (z : ZoneMonitor) : List (CauseKind × Category × Nat) :=
  if z.recovery then []
  else (List.finRange 16).filterMap fun i =>
    if z.currentHits.getLsbD i.val || z.stopHits.getLsbD i.val then
      match z.zones[i].kind with
      | .keepOut => some (.zone, z.zones[i].response, i.val)
      | .keepIn => some (.boundary, z.zones[i].response, i.val)
      | .slow => none
    else none

/-- R72: after an accepted zone request, the masks and then the speed scale, in force at once. -/
def Part.reevaluate (s : Part) : Part :=
  let z := s.zone.remask
  { s with zone := z, shaper := { s.shaper with sigma := z.speedScale } }

end Sys2Proof.Machine
end

