-- ==== Sys2Proof/Machine/StopSequencer.lean ====
section
/-! DEFINITION. The stop sequencer: taking a cause (R80, R81), the entries of the stop states (R87, R88,
R92, R94, R97), the readings of feedback (R91, R95, R100, R101) and the counts and timers (R93, R96,
R101). -/

namespace Sys2Proof.Machine

/-! ## The motion axes of the sequencer -/

/-- The sequencer's record of every present motion axis changed. -/
def Part.onAxes (s : Part) (f : Axis → AxisRecord → SequencerAxis → SequencerAxis) : Part :=
  { s with seq := { s.seq with axes := Vector.ofFn fun a : Axis =>
      if s.shaper.axes[Axis.slot a].present then f a s.shaper.axes[Axis.slot a] s.seq.axes[a]
      else s.seq.axes[a] } }

/-- Every present motion axis is confirmed. -/
def Part.allConfirmed (s : Part) : Bool := s.shaper.motion.all fun a => s.seq.axes[a].confirmed

/-- The lowest present motion slot with a property, 0 if there is none. -/
def Part.lowestAxis (s : Part) (p : SequencerAxis → Bool) : Nat :=
  match s.shaper.motion.find? fun a => p s.seq.axes[a] with
  | some a => a.val
  | none => 0

/-! ## Entering the stop states -/

/-- R97: the entry to Safe-Off. -/
def Part.enterSafeOff (s : Part) : Part :=
  { s with
    shaper := s.shaper.track
    zone := { s.zone with recovery := false }
    seq := { s.seq with
      state := .safeOff
      category := .none
      chainClosed := false
      readiness := false
      releaseStart := none
      releaseServed := 0
      phaseCount := 0
      axes := Vector.ofFn fun a : Axis =>
        { s.seq.axes[a] with stillRun := 0, reference := none, confirmed := false } } }

/-- R96: the Braking is complete once every present motion axis is confirmed. -/
def Part.completeBraking (s : Part) : Part := if s.allConfirmed then s.enterSafeOff else s

/-- R94: the entry to Braking; with no brakes it completes in the same action. -/
def Part.enterBraking (s : Part) : Part :=
  let s1 := { s with seq := { s.seq with
    state := .braking, category := .none, phaseStart := s.gateway.cycle, phaseCount := 0 } }
  (s1.onAxes fun _ r x => { x with confirmed := !r.brakePresent }).completeBraking

/-- R92, R101, R41: the entry to Holding. -/
def Part.enterHolding (s : Part) : Part :=
  { s with
    shaper := s.shaper.holdHere
    seq := { s.seq with state := .holding, category := .none } }

/-- R88: the entry to Ramping. -/
def Part.enterRamping (s : Part) (category : InForce) : Part :=
  { s with
    shaper := s.shaper.beginRamp
    seq := { s.seq with state := .ramping, category := category, phaseCount := 0 } }

/-- R89, R91: the entry to Settling, its phase starting at the served cycle whose step ended the
ramp. -/
def Part.enterSettling (s : Part) : Part :=
  Part.onAxes { s with seq := { s.seq with
      state := .settling, phaseStart := s.gateway.cycle, phaseCount := 0 } }
    fun _ _ x => { x with stillRun := 0, reference := none }

/-- R87: what is done on leaving Running, before the effects of the state entered. -/
def Part.leaveRunning (s : Part) : Part :=
  let s1 := { s with shaper := s.shaper.recordResume.parkTakeLenses }
  s1.playerStopNotice.recorderStopNotice

/-- R90: a Ramp cause during a ramp or a settling. -/
def Part.hardenToRamp (s : Part) : Part := { s with seq := { s.seq with category := .ramp } }

/-! ## Taking a cause -/

/-- R81: the transition of a cause by its category and the stop state in force. -/
def Part.transition (s : Part) (category : Category) : Part :=
  match category, s.seq.state with
  | .hold, .running => s.leaveRunning.enterRamping .hold
  | .hold, .ramping => s
  | .hold, .settling => s
  | .hold, .holding => s
  | .hold, .braking => s
  | .hold, .arming => s
  | .hold, .safeOff => s
  | .ramp, .running => s.leaveRunning.enterRamping .ramp
  | .ramp, .ramping => s.hardenToRamp
  | .ramp, .settling => s.hardenToRamp
  | .ramp, .holding => s.enterBraking
  | .ramp, .braking => s
  | .ramp, .arming => s.enterSafeOff
  | .ramp, .safeOff => s
  | .hard, .running => s.leaveRunning.enterSafeOff
  | .hard, .ramping => s.enterSafeOff
  | .hard, .settling => s.enterSafeOff
  | .hard, .holding => s.enterSafeOff
  | .hard, .braking => s.enterSafeOff
  | .hard, .arming => s.enterSafeOff
  | .hard, .safeOff => s

/-- R80: a cause posted to the sequencer is recorded, and its transition is made. -/
def Part.post (s : Part) (kind : CauseKind) (category : Category) (detail : Nat) : Part :=
  Part.transition { s with seq := s.seq.record kind detail } category

/-- R80: causes posted by one event are taken one after another. -/
def Part.postAll (s : Part) (cs : List (CauseKind × Category × Nat)) : Part :=
  cs.foldl (fun t c => t.post c.1 c.2.1 c.2.2) s

/-! ## The lines (R84, R85) -/

/-- R84: the E-stop line opens. -/
def Part.openEStop (s : Part) : Part :=
  Part.post { s with seq := { s.seq with eStopOpen := true, chainClosed := false } } .eStop .hard 0

/-- R85: the Guard line opens. -/
def Part.openGuard (s : Part) : Part :=
  Part.post { s with seq := { s.seq with guardOpen := true } } .guard .ramp 0

/-! ## Timers (R93, R95, R96, R101) -/

/-- R93: the still timeout. -/
def Part.checkStillTimeout (s : Part) : Part :=
  if s.seq.state = .settling ∧ s.shaper.timing.stillTimeout ≤ s.seq.phaseCount then
    s.post .stillTimeout .hard
      (s.lowestAxis fun x => decide (x.stillRun < s.shaper.timing.stillDwell))
  else s

/-- R95, R101: the brake confirm mode lets the timer confirm. -/
def ConfirmMode.byTimer : ConfirmMode → Bool
  | .feedback => false | .timer => true | .either => true

/-- R95, R101: the brake confirm mode lets feedback confirm. -/
def ConfirmMode.byFeedback : ConfirmMode → Bool
  | .feedback => true | .timer => false | .either => true

/-- R95: timer confirmations of Braking, and R96 when they are the last. -/
def Part.checkBrakeTimer (s : Part) : Part :=
  if s.seq.state = .braking ∧ s.shaper.timing.brakeTimer ≤ s.seq.phaseCount then
    (s.onAxes fun _ r x =>
      { x with confirmed := x.confirmed || (r.brakePresent && r.confirm.byTimer) }).completeBraking
  else s

/-- R96: the brake timeout. -/
def Part.checkBrakeTimeout (s : Part) : Part :=
  if s.seq.state = .braking ∧ s.shaper.timing.brakeTimeout ≤ s.seq.phaseCount ∧ !s.allConfirmed then
    s.post .brakeTimeout .hard (s.lowestAxis fun x => !x.confirmed)
  else s

/-- R101: Arming completes in Holding once readiness is seen and every axis is confirmed released. -/
def Part.completeArming (s : Part) : Part :=
  if s.seq.readiness ∧ s.allConfirmed then s.enterHolding else s

/-- R101: timer confirmations of Arming: brake timer served cycles since the release start. -/
def Part.checkReleaseTimer (s : Part) : Part :=
  if s.seq.state = .arming ∧ s.seq.readiness ∧ s.shaper.timing.brakeTimer ≤ s.seq.releaseServed then
    (s.onAxes fun _ r x =>
      { x with confirmed := x.confirmed || (r.brakePresent && r.confirm.byTimer) }).completeArming
  else s

/-- R101: the arming timeout. -/
def Part.checkArmingTimeout (s : Part) : Part :=
  if s.seq.state = .arming ∧ s.shaper.timing.armingTimeout ≤ s.seq.phaseCount then
    s.post .armFail .hard
      (if s.seq.readiness then s.lowestAxis fun x => !x.confirmed
       else s.lowestAxis fun x => !x.shown)
  else s

/-- R91, R94, R100: the phase count at the serving of a served cycle. -/
def Part.countPhase (s : Part) : Part :=
  { s with seq := { s.seq with phaseCount := bump65535 s.seq.phaseCount } }

/-- R101: the served cycles since the release start. -/
def Part.countRelease (s : Part) : Part :=
  { s with seq := { s.seq with
      releaseServed := if s.seq.releaseStart.isSome then bump65535 s.seq.releaseServed
                       else s.seq.releaseServed } }

/-- The sequencer at the serving of a served cycle: its counts, the timer confirmations due, then its
timeouts (R93, R96, R101; log 5). -/
def Part.sequencerServing (s : Part) : Part :=
  match s.seq.state with
  | .settling => s.countPhase.checkStillTimeout
  | .braking => s.countPhase.checkBrakeTimer.checkBrakeTimeout
  | .arming => s.countPhase.countRelease.checkReleaseTimer.checkArmingTimeout
  | .safeOff => s
  | .holding => s
  | .running => s
  | .ramping => s

/-! ## Readings of feedback -/

/-- How many cycles a feedback lies after a start cycle, modulo 65,536. R91 says so of its own reading; that
R95, R100 and R101 are read so too is the model's reading (log 59): a feedback whose number comes round
to the start after jumps of the cycle number is not read. -/
def cyclesAfter (cycle start : CycleNo) : Nat := (cycle - start).toNat

/-- R91: the table of the standstill reading for one axis. -/
def SequencerAxis.readStill (x : SequencerAxis) (fb : Feedback) (cycle : CycleNo)
    (threshold dwell : Nat) : SequencerAxis :=
  if fb.stale ∨ !fb.status.answered then { x with stillRun := 0, reference := none }
  else
    match x.reference with
    | none => { x with stillRun := 0, reference := some ⟨fb.actual, cycle⟩ }
    | some r =>
      if r.cycle + 1 ≠ cycle then { x with stillRun := 0, reference := some ⟨fb.actual, cycle⟩ }
      else if (fb.actual - r.count).natAbs ≤ threshold then
        { x with stillRun := min dwell (x.stillRun + 1), reference := some ⟨fb.actual, cycle⟩ }
      else { x with stillRun := 0, reference := some ⟨fb.actual, cycle⟩ }

/-- R91: standstill, after a reading. -/
def Part.standstill (s : Part) : Bool :=
  s.shaper.motion.all fun a => s.seq.axes[a].stillRun == s.shaper.timing.stillDwell

/-- R92: standstill is declared. -/
def Part.declareStandstill (s : Part) : Part :=
  match s.seq.category with
  | .hold => s.enterHolding
  | .ramp => s.enterBraking
  | .none => s

/-- R91, R92: a feedback read in Settling. -/
def Part.readSettling (s : Part) (cycle : CycleNo) : Part :=
  if cyclesAfter cycle s.seq.phaseStart ≤ s.shaper.timing.stillMask then s
  else
    let s1 := s.onAxes fun a r x =>
      x.readStill s.gateway.feedback[Axis.slot a] cycle r.still s.shaper.timing.stillDwell
    if s1.standstill then s1.declareStandstill else s1

/-- R95: a feedback read in Braking, past the brake mask (log 59). -/
def Part.readBraking (s : Part) (cycle : CycleNo) : Part :=
  if cyclesAfter cycle s.seq.phaseStart ≤ s.shaper.timing.brakeMask then s
  else
    (s.onAxes fun a r x =>
      let st := s.gateway.feedback[Axis.slot a].status
      { x with confirmed := x.confirmed ||
          (r.brakePresent && r.confirm.byFeedback && st.answered && st.brakeEngaged) }).completeBraking

/-- R100: a drive shows ready with torque on, in an answered slot. -/
def DriveStatus.showsReady (st : DriveStatus) : Bool := st.answered && st.ready && st.torqueOn

/-- R100: a feedback read in Arming before readiness is seen; one whose number is the phase start cycle's
is not read (log 59). -/
def Part.readReadiness (s : Part) (cycle : CycleNo) : Part :=
  if cyclesAfter cycle s.seq.phaseStart = 0 then s
  else
    let s1 := s.onAxes fun a _ x =>
      { x with shown := s.gateway.feedback[Axis.slot a].status.showsReady }
    if s1.shaper.motion.all fun a => s1.seq.axes[a].shown then
      let s2 := { s1 with seq := { s1.seq with
        readiness := true, releaseStart := some s1.gateway.cycle, releaseServed := 0 } }
      (s2.onAxes fun _ r x => { x with confirmed := x.confirmed || !r.brakePresent }).completeArming
    else s1

/-- R101: a feedback read in Arming after readiness was seen, past the brake mask (log 59). -/
def Part.readRelease (s : Part) (cycle start : CycleNo) : Part :=
  if cyclesAfter cycle start ≤ s.shaper.timing.brakeMask then s
  else
    (s.onAxes fun a r x =>
      let st := s.gateway.feedback[Axis.slot a].status
      { x with confirmed := x.confirmed ||
          (r.brakePresent && r.confirm.byFeedback && st.answered && !st.brakeEngaged) }).completeArming

/-- R91, R95, R100, R101: the sequencer reads the feedback of a served cycle. -/
def Part.sequencerReading (s : Part) (cycle : CycleNo) : Part :=
  match s.seq.state with
  | .settling => s.readSettling cycle
  | .braking => s.readBraking cycle
  | .arming =>
    match s.seq.releaseStart with
    | none => s.readReadiness cycle
    | some start => s.readRelease cycle start
  | .safeOff => s
  | .holding => s
  | .running => s
  | .ramping => s

/-! ## Rearm and Continue (R98, R99, R103) -/

/-- R98 step 4: the conditions of Rearm. -/
def Part.rearmAllowed (s : Part) (recover : Bool) : Bool :=
  !s.seq.eStopOpen && !s.seq.guardOpen &&
  (allSlots.all fun c => !(s.shaper.axes[c].present && s.gateway.feedback[c].status.fault)) &&
  s.gateway.driveMiss == 0 &&
  (s.shaper.motion.all fun a =>
    let f := s.gateway.feedback[Axis.slot a]
    !f.stale && decide (s.shaper.axes[Axis.slot a].pmin ≤ f.actual) &&
      decide (f.actual ≤ s.shaper.axes[Axis.slot a].pmax)) &&
  (s.zone.clear || recover)

/-- R76: the zone monitor is handed the Recover flag. -/
def Part.handRecover (s : Part) (recover : Bool) : Part :=
  if recover ∧ !s.zone.clear then
    let z := { s.zone with recovery := true }
    { s with zone := z, shaper := { s.shaper with sigma := z.speedScale } }
  else s

/-- R99: the effects of an accepted Rearm. -/
def Part.rearm (s : Part) (recover : Bool) : Part :=
  Part.handRecover { s with
    shaper := s.takeUpParked
    seq := { s.seq with
      causes := 0
      firstCause := none
      chainClosed := true
      state := .arming
      readiness := false
      phaseStart := s.gateway.cycle
      phaseCount := 0
      axes := Vector.ofFn fun a : Axis => { s.seq.axes[a] with confirmed := false, shown := false } } }
    recover

/-- R103: the effects of an accepted Continue. -/
def Part.continueRunning (s : Part) : Part :=
  { s with shaper := s.shaper.resumeLive, seq := { s.seq with state := .running } }

end Sys2Proof.Machine
end

