-- ==== Sys2Proof/Machine/Sync.lean ====
section
/-! DEFINITION. The sync unit: candidates and accepted edges (R122 to R126), the loss of the camera
(R127, R128), phase points and frame marks (R129, R130). -/

namespace Sys2Proof.Machine

/-- The time base moved on to a time; it never goes back (log 4). -/
def Part.advanceTo (s : Part) (t : Nat) : Part := { s with now := max s.now t }

/-- R122: an interval is in range. -/
def intervalInRange (i : Nat) : Bool := decide (4000 ≤ i) && decide (i ≤ 50000)

/-- R122: the mask, in µs. -/
def SyncUnit.mask (u : SyncUnit) : Nat := u.zavg / 4

/-- R124: a candidate taken as a first edge; what was pending is cancelled (R126, R128, R129). -/
def SyncUnit.firstEdge (u : SyncUnit) (t : Nat) : SyncUnit :=
  { u with state := .acquiring, reference := some t, agreement := 0, freewheel := 0,
           lossTime := none, nextSynth := none, phasePoint := none }

/-- R123: an accepted edge. -/
def SyncUnit.accept (u : SyncUnit) (t interval : Nat) : SyncUnit :=
  { u with zprev := u.zn, zn := interval, zavg := (interval + u.zn) / 2, reference := some t }

/-- R125: two intervals agree within one sixty-fourth of the first. -/
def agrees (interval zn : Nat) : Bool := decide (((interval : Int) - zn).natAbs ≤ zn / 64)

/-- R125: the agreement run after an accepted edge. -/
def SyncUnit.nextRun (u : SyncUnit) (interval : Nat) : Nat :=
  if u.agreement = 0 then 1 else if agrees interval u.zn then u.agreement + 1 else 1

/-- R126: the loss time of an accepted edge in Locked. -/
def SyncUnit.setLoss (u : SyncUnit) (t : Nat) : SyncUnit :=
  { u with lossTime := some (t + 3 * u.zavg / 2) }

/-- R130: the phase of a mark at a time. -/
def Gateway.phaseAt (g : Gateway) (t : Nat) : Nat := min 255 (256 * (t - g.servedTime) / g.period)

/-- R130: a phase point expires: the frame count increments and the mark is handed to the recorder
and to the player. -/
def Part.expirePhasePoint (s : Part) : Part :=
  let phase := s.gateway.phaseAt s.now
  let s1 := { s with sync := { s.sync with phasePoint := none, frameCount := s.sync.frameCount + 1 } }
  (s1.markToRecorder phase).markToPlayer phase

/-- R129: a pending phase point expires before a new one is set. -/
def Part.expirePending (s : Part) : Part :=
  if s.sync.phasePoint.isSome then s.expirePhasePoint else s

/-- R129: the phase point of an edge; a time not later than the moment of scheduling expires at
once. -/
def Part.schedulePhasePoint (s : Part) (edge : Nat) : Part :=
  let s1 := s.expirePending
  let t := edge + s1.sync.zavg * s1.sync.weight / 256
  let s2 := { s1 with sync := { s1.sync with phasePoint := some t } }
  if t ≤ s2.now then s2.expirePhasePoint else s2

/-- R125: a candidate in Acquiring. -/
def Part.edgeAcquiring (s : Part) (t interval : Nat) : Part :=
  if !intervalInRange interval then { s with sync := s.sync.firstEdge t }
  else
    let run := s.sync.nextRun interval
    let u := { s.sync.accept t interval with agreement := run }
    if run = 3 then
      Part.schedulePhasePoint { s with sync := { u.setLoss t with state := .locked } } t
    else { s with sync := u }

/-- R126: a candidate in Locked. -/
def Part.edgeLocked (s : Part) (t interval : Nat) : Part :=
  if interval < s.sync.mask then s
  else if intervalInRange interval then
    Part.schedulePhasePoint { s with sync := (s.sync.accept t interval).setLoss t } t
  else { s with sync := s.sync.firstEdge t }

/-- R128: a candidate in Freewheel. -/
def Part.edgeFreewheel (s : Part) (t interval : Nat) : Part :=
  if interval < s.sync.mask then s else { s with sync := s.sync.firstEdge t }

/-- R122: a candidate edge at a time, by the sync state. -/
def Part.candidate (s : Part) (t : Nat) : Part :=
  match s.sync.reference with
  | none => { s with sync := s.sync.firstEdge t }
  | some r =>
    match s.sync.state with
    | .absent => { s with sync := s.sync.firstEdge t }
    | .lost => { s with sync := s.sync.firstEdge t }
    | .acquiring => s.edgeAcquiring t (t - r)
    | .locked => s.edgeLocked t (t - r)
    | .freewheel => s.edgeFreewheel t (t - r)

/-- R127: the loss time is reached in Locked. -/
def Part.loseFrame (s : Part) : Part :=
  let edge := s.sync.reference.getD 0 + s.sync.zavg
  Part.schedulePhasePoint { s with sync := { s.sync with
    state := .freewheel, reference := some edge, freewheel := 1, lossTime := none,
    nextSynth := some (edge + s.sync.zavg) } } edge

/-- R128: an edge is synthesized at the next synthesized time. -/
def Part.synthesizeEdge (s : Part) (edge : Nat) : Part :=
  let count := s.sync.freewheel + 1
  if count = 8 then
    { s with sync := { s.sync with
      state := .lost, freewheel := count, nextSynth := none, phasePoint := none } }
  else
    Part.schedulePhasePoint { s with sync := { s.sync with
      reference := some edge, freewheel := count, nextSynth := some (edge + s.sync.zavg) } } edge

end Sys2Proof.Machine
end

