-- ==== Sys2Proof/Machine/Gateway.lean ====
section
/-! DEFINITION. The ring gateway's frames: the return frame (R15 to R17), the drive frame (R10, R11), a
missed drive frame (R13) and the feedback of a returned one (R12, R14, R53). -/

namespace Sys2Proof.Machine

/-! ## The return frame -/

/-- R15: the value of a feedback slot. -/
def Part.feedbackValue (s : Part) (c : Slot) : Int :=
  let actual := s.gateway.feedback[c].actual
  match lensOf c with
  | none => actual
  | some l =>
    if s.shaper.axes[c].present && s.lens.chans[l].mode.physical then
      reverseMap s.lens.chans[l].active actual
    else actual

/-- R16: the replies a return frame takes from the head of the queue within the room left, and the
queue after them. -/
def takeReplies : Nat → List ReplyEntry → List SentReply × List ReplyEntry
  | _, [] => ([], [])
  | room, e :: rest =>
    match e.answer with
    | none => ([], e :: rest)
    | some a =>
      let r : SentReply := ⟨e.tag, e.kind, a⟩
      if r.size ≤ room then
        let t := takeReplies (room - r.size) rest
        (r :: t.1, t.2)
      else ([], e :: rest)

/-- The bytes a return frame gives to replies (R16). -/
def replyRoom : Nat := 480

/-- R15 to R17: the return frame of a cycle is composed and emitted out of port A. -/
def Part.emitReturn (s : Part) (cycle : CycleNo) : Part :=
  let taken := takeReplies replyRoom s.lane.queue
  let s1 := { s with lane := { s.lane with queue := taken.2 } }
  let frame : ReturnFrame :=
    { cycle := cycle
      stale := Vector.ofFn fun c : Slot => s.gateway.feedback[c].stale
      values := Vector.ofFn fun c : Slot => s.feedbackValue c
      status := s1.statusBlock
      replies := taken.1 }
  { s1 with portA := s1.portA ++ [frame] }

/-! ## The drive frame -/

/-- R10, R11: a slot of the drive frame, from the setpoints of the cycle and the flags of the stop
sequencer as they stand. -/
def Part.driveSlot (s : Part) (setpoints : Vector Int 12) (c : Slot) : DriveSlot :=
  let idle : DriveSlot := ⟨s.gateway.feedback[c].actual, false, false⟩
  if s.lane.mode = .setup ∨ !s.shaper.axes[c].present then idle
  else if h : c.val < 8 then
    ⟨setpoints[c], s.torqueFlag ⟨c.val, h⟩, s.releaseFlag ⟨c.val, h⟩⟩
  else
    match lensOf c with
    | none => idle
    | some l => if s.lens.chans[l].mode = .off then idle else ⟨setpoints[c], true, true⟩

/-- R13 step 1: every slot of the feedback record marked stale. -/
def Gateway.allStale (g : Gateway) : Gateway :=
  { g with feedback := Vector.ofFn fun c : Slot => { g.feedback[c] with stale := true } }

/-- R13: a drive frame still outstanding is counted as missed before the next one leaves. -/
def Part.settleOutstanding (s : Part) : Part :=
  match s.gateway.outstanding with
  | none => s
  | some o =>
    let s1 := Part.emitReturn { s with gateway := s.gateway.allStale } o.cycle
    let miss := bump255 s1.gateway.driveMiss
    let s2 := { s1 with gateway := { s1.gateway with driveMiss := miss, outstanding := none } }
    if s2.gateway.missLimit ≤ miss then s2.post .driveLink .hard 0 else s2

/-- R10: the drive frame of the served cycle is composed, emitted out of port B and recorded as
outstanding. -/
def Part.emitDrive (s : Part) (setpoints : Vector Int 12) : Part :=
  let s1 := s.settleOutstanding
  let slots := Vector.ofFn fun c : Slot => s1.driveSlot setpoints c
  let o : Outstanding :=
    { cycle := s1.gateway.cycle
      setpoints := Vector.ofFn fun c : Slot => slots[c].setpoint
      torque := Vector.ofFn fun c : Slot => slots[c].torque }
  { s1 with
    gateway := { s1.gateway with outstanding := some o }
    portB := s1.portB ++ [⟨s1.gateway.cycle, slots⟩] }

/-! ## The return of a drive frame -/

/-- R12: a feedback slot after a drive frame is taken. -/
def Feedback.take (f : Feedback) (r : DriveReply) : Feedback :=
  if r.status.answered then { actual := r.actual, status := r.status, stale := false }
  else { actual := f.actual, status := DriveStatus.silent, stale := true }

/-- R12: the gateway after a drive frame is taken. -/
def Gateway.takeDrive (g : Gateway) (d : DriveReturn) : Gateway :=
  { g with
    outstanding := none
    driveMiss := 0
    feedback := Vector.ofFn fun c : Slot => g.feedback[c].take d.slots[c] }

/-- R53: the slots that the following check reads: present and answered. -/
def Part.followed (s : Part) (c : Slot) : Bool :=
  s.shaper.axes[c].present && s.gateway.feedback[c].status.answered

/-- R53: the following runs after a feedback. -/
def Part.followRuns (s : Part) (o : Outstanding) : Shaper :=
  s.shaper.mapChans fun c ch =>
    let actual := s.gateway.feedback[c].actual
    if s.followed c then
      { ch with followRun := s.shaper.axes[c].nextRun ch.followRun o.torque[c] actual o.setpoints[c] }
    else ch

/-- R53: the Following causes of a feedback, in ascending slot order, from the runs it leaves. -/
def Part.followCauses (s : Part) (o : Outstanding) : List (CauseKind × Category × Nat) :=
  (allSlots.filter fun c =>
    s.followed c &&
    s.shaper.axes[c].exceeds o.torque[c] s.gateway.feedback[c].actual o.setpoints[c] &&
    decide (s.shaper.axes[c].followCount ≤ s.shaper.chans[c].followRun)).map
    fun c => (.following, .ramp, c.val)

/-- R53: the following check. -/
def Part.checkFollowing (s : Part) (o : Outstanding) : Part :=
  let s1 := { s with shaper := s.followRuns o }
  s1.postAll (s1.followCauses o)

/-- R14: the DriveFault causes of a returned drive frame, in ascending slot order. -/
def Part.driveFaults (s : Part) : List (CauseKind × Category × Nat) :=
  (s.shaper.motion.filter fun a =>
    s.gateway.feedback[Axis.slot a].status.fault || !s.gateway.feedback[Axis.slot a].status.answered).map
    fun a => (.driveFault, .hard, a.val)

/-- R12: a drive frame is taken: the feedback is recorded and passed to the shaper and then to the stop
sequencer, in the order in which R12 names them (log 48), the return frame is emitted, and drive
faults are posted. -/
def Part.takeDriveFrame (s : Part) (o : Outstanding) (d : DriveReturn) : Part :=
  let s1 := { s with gateway := s.gateway.takeDrive d }
  let s2 := (s1.checkFollowing o).sequencerReading o.cycle
  let s3 := s2.emitReturn o.cycle
  s3.postAll s3.driveFaults

/-- R12: a drive frame arrives back at port B. -/
def Part.driveReturned (s : Part) (frame : List Byte) : Part :=
  match s.gateway.outstanding, DriveReturn.ofBytes frame with
  | some o, some d => if d.cycle = o.cycle then s.takeDriveFrame o d else s
  | _, _ => s

end Sys2Proof.Machine
end

