-- ==== Sys2Proof/Machine/Axes.lean ====
section
/-! DEFINITION. The requests of the envelope shaper: Axis Set (R34 to R36), Axis Read (R37) and Source
Live (R43). -/

namespace Sys2Proof.Machine

/-! ## Judging an Axis Set (R34) -/

/-- Section 3.1: a kind matches its slot. -/
def kindAllowed (c : Slot) (k : AxisKind) : Bool :=
  match k with
  | .lens => decide (8 ≤ c.val)
  | .linear => decide (c.val = 0) || decide (c.val = 3) || decide (c.val = 7)
  | .rotary => decide (c.val < 8) && decide (c.val ≠ 0) && decide (c.val ≠ 3)

/-- Section 3.1: a window end lies in the range of its slot. -/
def windowEndAllowed (c : Slot) (x : Int) : Bool :=
  if isMotion c then within x (-2147483648) 2147483647 else within x (-8388607) 8388607

/-- Section 3.1: the fields without codes lie in their ranges. -/
def AxisFields.inRange (f : AxisFields) (c : Slot) : Bool :=
  windowEndAllowed c f.pmin && windowEndAllowed c f.pmax && decide (f.pmin < f.pmax) &&
  decide (1 ≤ f.vmax) && decide (f.vmax ≤ 67108864) &&
  decide (1 ≤ f.amax) && decide (f.amax ≤ 16777216) &&
  decide (f.amax ≤ f.astop) && decide (f.astop ≤ 16777216) &&
  decide (f.following ≤ 16777216) && decide (1 ≤ f.followCount) && decide (f.followCount ≤ 16) &&
  decide (f.divergence ≤ 16777216) && decide (f.still ≤ 65535)

/-- R34 step 2: the record for a channel slot, none when a field is out of its range. -/
def AxisFields.toRecord (f : AxisFields) (c : Slot) : Option AxisRecord :=
  match flagOfCode f.present, AxisKind.ofCode f.kind, flagOfCode f.brakePresent,
      ConfirmMode.ofCode f.confirm with
  | some present, some kind, some brake, some confirm =>
    if kindAllowed c kind && AxisFields.inRange f c && (isMotion c || !brake) then
      some
        { present := present, kind := kind, pmin := f.pmin, pmax := f.pmax, vmax := f.vmax,
          amax := f.amax, astop := f.astop, following := f.following, followCount := f.followCount,
          divergence := f.divergence, still := f.still, brakePresent := brake, confirm := confirm,
          set := true }
    else none
  | _, _, _, _ => none

/-- R34 step 2: the stop timing record, none when a field is out of its range. -/
def TimingFields.toTiming (f : TimingFields) : Option StopTiming :=
  if 1 ≤ f.stillDwell ∧ f.stillDwell ≤ 255 ∧ f.stillMask ≤ 255 ∧ f.brakeMask ≤ 255 ∧
      1 ≤ f.stillTimeout ∧ f.stillTimeout ≤ 65535 ∧ 1 ≤ f.brakeTimer ∧ f.brakeTimer ≤ 4095 ∧
      1 ≤ f.brakeTimeout ∧ f.brakeTimeout ≤ 65535 ∧ 1 ≤ f.armingTimeout ∧ f.armingTimeout ≤ 65535 then
    some
      { stillDwell := f.stillDwell, stillMask := f.stillMask, stillTimeout := f.stillTimeout,
        brakeMask := f.brakeMask, brakeTimer := f.brakeTimer, brakeTimeout := f.brakeTimeout,
        armingTimeout := f.armingTimeout }
  else none

/-! ## In Run (R35, R36) -/

/-- R35: a limit that 0 turns off is as strict. -/
def limitAsStrict (new old : Nat) : Bool := old == 0 || (new != 0 && decide (new ≤ old))

/-- R35: every field of the new record is as strict as the one it replaces. -/
def AxisRecord.asStrict (new old : AxisRecord) : Bool :=
  new.present == old.present && decide (new.kind = old.kind) &&
  new.brakePresent == old.brakePresent && decide (new.confirm = old.confirm) &&
  new.still == old.still && decide (old.pmin ≤ new.pmin) && decide (new.pmax ≤ old.pmax) &&
  decide (new.vmax ≤ old.vmax) && decide (new.amax ≤ old.amax) && decide (old.astop ≤ new.astop) &&
  limitAsStrict new.following old.following && limitAsStrict new.divergence old.divergence &&
  decide (new.followCount ≤ old.followCount)

/-- R36: the window, in fine units, holds the shaped position and the stopping extent at an
acceleration. -/
def Channel.reaches (ch : Channel) (w : Int × Int) (amax : Nat) : Bool :=
  within ch.p w.1 w.2 && within (stoppingExtent ch.p ch.v amax) w.1 w.2

/-- R36: a record passes the reach check; an absent channel is not checked. -/
def AxisRecord.reachable (a : AxisRecord) (ch : Channel) : Bool :=
  !a.present || ch.reaches (fineWindow (a.pmin, a.pmax)) a.amax

/-- One axis record replaced. -/
def Shaper.setAxis (sh : Shaper) (c : Slot) (a : AxisRecord) : Shaper :=
  { sh with axes := sh.axes.set c a }

/-- The part with an axis record replaced. -/
def Part.putAxis (s : Part) (c : Slot) (a : AxisRecord) : Part :=
  { s with shaper := s.shaper.setAxis c a }

/-- R34 to R36 for a channel slot. -/
def Part.axisSetChannel (s : Part) (c : Slot) (f : AxisFields) : Served :=
  match AxisFields.toRecord f c with
  | none => refuse s .range
  | some a =>
    match s.lane.mode with
    | .setup => done (s.putAxis c a)
    | .run =>
      if !a.asStrict s.shaper.axes[c] then refuse s .wrongMode
      else if a.reachable s.shaper.chans[c] then done (s.putAxis c a)
      else refuse s .unreachable

/-- R34 for the stop timing record. -/
def Part.axisSetTiming (s : Part) (f : TimingFields) : Served :=
  match TimingFields.toTiming f with
  | none => refuse s .range
  | some t =>
    match s.lane.mode with
    | .setup => done { s with shaper := { s.shaper with timing := t } }
    | .run => refuse s .wrongMode

/-- Axis Set. A record read for another kind of target than the one named is no record of the lane's
(`WellFormed` excludes it), and is out of range. -/
def Part.requestAxisSet (s : Part) (target : Nat) (record : AxisSetRecord) : Served :=
  match record with
  | .timing f => if target = 12 then s.axisSetTiming f else refuse s .range
  | .channel f => if h : target < 12 then s.axisSetChannel ⟨target, h⟩ f else refuse s .range

/-- R37: Axis Read. -/
def Part.requestAxisRead (s : Part) (target : Nat) : Served :=
  if h : target < 12 then
    let a := s.shaper.axes[target]
    doneWith s ([byteOf target] ++ spare 3 ++ a.bytes ++ [flagByte a.set])
  else if target = 12 then
    doneWith s ([byteOf target] ++ spare 3 ++ s.shaper.timing.bytes ++ [Config.timingSetByte])
  else refuse s .range

/-! ## Source Live (R43) -/

/-- R43 step 2: a source that Source Live may not take a channel from. -/
def Source.heldFromLive : Source → Bool
  | .take => true | .stop => true | .track => true | .live => false | .parked => false

/-- R43: each named channel on Parked takes Live. -/
def Shaper.goLive (sh : Shaper) (m : Mask) : Shaper :=
  sh.mapChans fun c ch =>
    if Mask.has m c && decide (ch.source = .parked) then ch.withSource .live else ch

/-- Source Live. -/
def Part.requestSourceLive (s : Part) (field : BitVec 16) : Served :=
  if s.lane.mode = .setup then refuse s .wrongMode
  else
    match maskOfField field with
    | none => refuse s .range
    | some m =>
      if (Mask.slots m).any fun c => !s.shaper.axes[c].present then refuse s .range
      else if (Mask.slots m).any fun c => s.shaper.chans[c].source.heldFromLive then
        refuse s .wrongState
      else if ((Mask.slots m).any fun c => isMotion c) ∧ s.seq.state ≠ .running then
        refuse s .wrongState
      else done { s with shaper := s.shaper.goLive m }

/-! ## The commands -/

/-- R34 to R36: Axis Set read from a served lane. -/
def Part.serveAxisSet (s : Part) (tag : Byte) (target : Nat) (record : AxisSetRecord) : Part :=
  serveRequest 0x10#8 tag (fun _ t => t.requestAxisSet target record) s

/-- R34 to R36: the command Axis Set. -/
def execAxisSet (tag : Byte) (target : Nat) (record : AxisSetRecord) (s : State) : Host.Outcome State Fault Refusal :=
  .next { s with part := s.part.serveAxisSet tag target record }

/-- R37: Axis Read read from a served lane. -/
def Part.serveAxisRead (s : Part) (tag : Byte) (target : Nat) : Part :=
  serveRequest 0x11#8 tag (fun _ t => t.requestAxisRead target) s

/-- R37: the command Axis Read. -/
def execAxisRead (tag : Byte) (target : Nat) (s : State) : Host.Outcome State Fault Refusal :=
  .next { s with part := s.part.serveAxisRead tag target }

/-- R43: Source Live read from a served lane. -/
def Part.serveSourceLive (s : Part) (tag : Byte) (mask : BitVec 16) : Part :=
  serveRequest 0x12#8 tag (fun _ t => t.requestSourceLive mask) s

/-- R43: the command Source Live. -/
def execSourceLive (tag : Byte) (mask : BitVec 16) (s : State) : Host.Outcome State Fault Refusal :=
  .next { s with part := s.part.serveSourceLive tag mask }

end Sys2Proof.Machine
end

