-- ==== Sys2Proof/Machine/LensRequests.lean ====
section
/-! DEFINITION. The requests of the lens mapper: Lens Mode Set (R109), Lens Points (R110), Lens Commit
(R111, R112), Lens Table Read (R113) and Target Update (R115). -/

namespace Sys2Proof.Machine

/-- The lens channel of a channel field: slots 8–11. -/
def lensIxOf (n : Nat) : Option LensIx := if h : 8 ≤ n ∧ n < 12 then some ⟨n - 8, by omega⟩ else none

/-- A lens channel record replaced. -/
def Part.putLens (s : Part) (l : LensIx) (c : LensChannel) : Part :=
  { s with lens := s.lens.setChan l c }

/-! ## Lens Mode Set (R109) -/

/-- R109 step 1: the mode asked for, for a channel. -/
def lensModeFor (l : LensIx) (mode : Nat) : Option LensMode :=
  match LensMode.ofCode mode with
  | none => none
  | some m => if m = .follow ∧ l.val ≠ 0 then none else some m

/-- R109 steps 5 and 6: the effective window that a new mode would give, by the table that will be in
force. -/
def Part.newWindow (s : Part) (l : LensIx) (m : LensMode) : Int × Int :=
  lensWindow s.shaper.axes[LensIx.slot l] m s.lens.chans[l].coming

/-- R109 steps 4 to 6: what refuses a change of mode in Run for a present channel. -/
def Part.modeRefusal (s : Part) (l : LensIx) (m : LensMode) : Option ResultCode :=
  let c := LensIx.slot l
  let ch := s.shaper.chans[c]
  let f := s.gateway.feedback[c]
  let w := s.newWindow l m
  if ch.source = .take ∨ ch.v ≠ 0 then some .wrongState
  else if s.lens.chans[l].mode = .off then
    if f.stale then some .blocked
    else if within f.actual w.1 w.2 then none
    else some .unreachable
  else if m = .off then none
  else if within ch.p (fineWindow w).1 (fineWindow w).2 then none
  else some .unreachable

/-- R109: the lens mode changes, with the last demand set anew for a count. -/
def Part.setMode (s : Part) (l : LensIx) (m : LensMode) (count : Int) : Part :=
  s.putLens l (({ s.lens.chans[l] with mode := m } : LensChannel).setLastDemand count)

/-- R109, R42: an accepted change of mode in Run for a present channel. -/
def Part.changeMode (s : Part) (l : LensIx) (m : LensMode) : Part :=
  let c := LensIx.slot l
  let ch := s.shaper.chans[c]
  if s.lens.chans[l].mode = .off then
    let up := ch.takeUp s.gateway.feedback[c].actual (fineWindow (s.newWindow l m)) .live
    Part.setMode { s with shaper := s.shaper.setChan c up } l m (countOf up.p)
  else if m = .off then
    Part.setMode { s with shaper := s.shaper.setChan c (ch.withSource .track) } l m (countOf ch.p)
  else s.setMode l m (countOf ch.p)

/-- R168: a change of the mode of a recorded lens channel closes the recording. -/
def Part.closeForMode (s : Part) (l : LensIx) : Part :=
  match s.recordingSlot with
  | none => s
  | some (_, d) =>
    if (s.recorder.state = .recording ∨ s.recorder.state = .stalled) ∧
        Mask.has d.info.mask (LensIx.slot l) then
      s.closeRecording .mode
    else s

/-- The channel is driven by the mode: in Run and present. -/
def Part.inRunPresent (s : Part) (l : LensIx) : Bool :=
  decide (s.lane.mode = .run) && s.shaper.axes[LensIx.slot l].present

/-- R109 steps 2 to 6 and acceptance. -/
def Part.judgeMode (s : Part) (l : LensIx) (m : LensMode) : Served :=
  if m = s.lens.chans[l].mode then done s
  else if m.physical ∧ !validTable s.lens.chans[l].coming then refuse s .invalid
  else if s.inRunPresent l then
    match s.modeRefusal l m with
    | some code => refuse s code
    | none => done ((s.changeMode l m).closeForMode l)
  else done ((s.putLens l { s.lens.chans[l] with mode := m }).closeForMode l)

/-- Lens Mode Set. -/
def Part.requestLensModeSet (s : Part) (channel mode : Nat) : Served :=
  match lensIxOf channel with
  | none => refuse s .range
  | some l =>
    match lensModeFor l mode with
    | none => refuse s .range
    | some m => s.judgeMode l m

/-! ## Lens Points (R110) -/

/-- R110 step 3: a pair lies in its ranges. -/
def pairInRange (p : LensPair) : Bool :=
  decide (p.phys ≤ 16777215) && within p.count (-8388607) 8388607

/-- R110: the staging table with pairs written from an index on, wrapping past 63. -/
def writeStaging (t : Vector StagingEntry 64) : Nat → List LensPair → Vector StagingEntry 64
  | _, [] => t
  | k, p :: rest =>
    writeStaging (t.set (k % 64) ⟨p.phys, p.count, true⟩ (Nat.mod_lt _ (by omega))) (k + 1) rest

/-- Lens Points. -/
def Part.requestLensPoints (s : Part) (f : LensPointsFields) : Served :=
  match lensIxOf f.channel with
  | none => refuse s .range
  | some l =>
    if 63 < f.start then refuse s .range
    else if f.extra ≠ 0 then refuse s .invalid
    else if f.pairs.length < 1 ∨ 59 < f.pairs.length ∨ f.pairs.any (fun p => !pairInRange p) then
      refuse s .range
    else
      done (s.putLens l { s.lens.chans[l] with
        staging := writeStaging s.lens.chans[l].staging f.start f.pairs, staged := true })

/-! ## Lens Commit (R111, R112) -/

/-- The first n staging entries. -/
def LensChannel.stagedRun (c : LensChannel) (n : Nat) : List StagingEntry := c.staging.toList.take n

/-- Neighbours of a list stand in an order. -/
def ordered (lt : StagingEntry → StagingEntry → Bool) : List StagingEntry → Bool
  | [] => true
  | [_] => true
  | a :: b :: rest => lt a b && ordered lt (b :: rest)

/-- R111 step 2: the staging entries make a table for the axis window. -/
def tableConsistent (es : List StagingEntry) (a : AxisRecord) : Bool :=
  es.all (·.written) && ordered (fun x y => decide (x.phys < y.phys)) es &&
  (ordered (fun x y => decide (x.count < y.count)) es ||
    ordered (fun x y => decide (y.count < x.count)) es) &&
  es.all fun e => within e.count a.pmin a.pmax

/-- The pairs of staging entries. -/
def pairsOf (es : List StagingEntry) : List LensPair := es.map fun e => ⟨e.phys, e.count⟩

/-- R112: the reach check of a commit; none is made in Setup, in Off or Direct, or for an absent
channel. It is made with the commit's own table, also for a second commit before the installation:
that this is what R112 says of such a commit is the model's reading (log 57). -/
def Part.commitReaches (s : Part) (l : LensIx) (table : List LensPair) : Bool :=
  let c := LensIx.slot l
  !(s.inRunPresent l && s.lens.chans[l].mode.physical) ||
    s.shaper.chans[c].reaches
      (fineWindow (lensWindow s.shaper.axes[c] s.lens.chans[l].mode table)) s.shaper.axes[c].amax

/-- R112: an accepted commit. -/
def LensChannel.commit (c : LensChannel) (table : List LensPair) : LensChannel :=
  { c with pending := some table, staging := Vector.replicate 64 StagingEntry.reset, staged := false }

/-- Lens Commit. -/
def Part.requestLensCommit (s : Part) (channel n : Nat) : Served :=
  match lensIxOf channel with
  | none => refuse s .range
  | some l =>
    if n < 2 ∨ 64 < n then refuse s .range
    else
      let es := s.lens.chans[l].stagedRun n
      if !tableConsistent es s.shaper.axes[LensIx.slot l] then refuse s .invalid
      else if !s.commitReaches l (pairsOf es) then refuse s .unreachable
      else done (s.putLens l (s.lens.chans[l].commit (pairsOf es)))

/-! ## Lens Table Read (R113) -/

/-- R113: the entry of a table at an index; an index at N or above is reported as unused. -/
def tableEntry (t : List LensPair) (k : Nat) : StagingEntry :=
  match t[k]? with
  | some p => ⟨p.phys, p.count, true⟩
  | none => ⟨Config.unusedPhys, Config.unusedCount, false⟩

/-- Lens Table Read. -/
def Part.requestLensTableRead (s : Part) (f : TableReadFields) : Served :=
  match lensIxOf f.channel with
  | none => refuse s .range
  | some l =>
    if 1 < f.choice ∨ 63 < f.start ∨ f.count < 1 ∨ 32 < f.count then refuse s .range
    else if f.choice = 0 then
      let t := s.lens.chans[l].coming
      doneWith s (tableReadBytes 0 (byteOf t.length)
        ((List.range f.count).map fun k => tableEntry t (f.start + k)))
    else
      doneWith s (tableReadBytes 1 Config.stagingCountByte
        ((List.range f.count).map fun k =>
          s.lens.chans[l].staging[(f.start + k) % 64]'(Nat.mod_lt _ (by omega))))

/-! ## Target Update (R115) -/

/-- R27: a point with each coordinate clamped. -/
def clampPoint (p : Point) : Point := ⟨clampCoord p.x, clampCoord p.y, clampCoord p.z⟩

/-- Target Update. -/
def Part.requestTargetUpdate (s : Part) (f : TargetFields) : Served :=
  if 1 ≤ f.refresh ∧ f.refresh ≤ 65535 ∧ within f.offset (-16777215) 16777215 then
    done { s with lens := { s.lens with
      target := { present := true, point := clampPoint f.point, refresh := f.refresh,
                  offset := f.offset, age := 0, stale := false } } }
  else refuse s .range

/-! ## The commands -/

/-- R109: Lens Mode Set read from a served lane. -/
def Part.serveLensModeSet (s : Part) (tag : Byte) (channel mode : Nat) : Part :=
  serveRequest 0x40#8 tag (fun _ t => t.requestLensModeSet channel mode) s

/-- R109: the command Lens Mode Set. -/
def execLensModeSet (tag : Byte) (channel mode : Nat) (s : State) : Host.Outcome State Fault Refusal :=
  .next { s with part := s.part.serveLensModeSet tag channel mode }

/-- R110: Lens Points read from a served lane. -/
def Part.serveLensPoints (s : Part) (tag : Byte) (body : LensPointsFields) : Part :=
  serveRequest 0x41#8 tag (fun _ t => t.requestLensPoints body) s

/-- R110: the command Lens Points. -/
def execLensPoints (tag : Byte) (body : LensPointsFields) (s : State) : Host.Outcome State Fault Refusal :=
  .next { s with part := s.part.serveLensPoints tag body }

/-- R111, R112: Lens Commit read from a served lane. -/
def Part.serveLensCommit (s : Part) (tag : Byte) (channel count : Nat) : Part :=
  serveRequest 0x42#8 tag (fun _ t => t.requestLensCommit channel count) s

/-- R111, R112: the command Lens Commit. -/
def execLensCommit (tag : Byte) (channel count : Nat) (s : State) : Host.Outcome State Fault Refusal :=
  .next { s with part := s.part.serveLensCommit tag channel count }

/-- R113: Lens Table Read read from a served lane. -/
def Part.serveLensTableRead (s : Part) (tag : Byte) (body : TableReadFields) : Part :=
  serveRequest 0x43#8 tag (fun _ t => t.requestLensTableRead body) s

/-- R113: the command Lens Table Read. -/
def execLensTableRead (tag : Byte) (body : TableReadFields) (s : State) : Host.Outcome State Fault Refusal :=
  .next { s with part := s.part.serveLensTableRead tag body }

/-- R115: Target Update read from a served lane. -/
def Part.serveTargetUpdate (s : Part) (tag : Byte) (body : TargetFields) : Part :=
  serveRequest 0x44#8 tag (fun _ t => t.requestTargetUpdate body) s

/-- R115: the command Target Update. -/
def execTargetUpdate (tag : Byte) (body : TargetFields) (s : State) : Host.Outcome State Fault Refusal :=
  .next { s with part := s.part.serveTargetUpdate tag body }

end Sys2Proof.Machine
end

