-- ==== Sys2Proof/Machine/PlayerRequests.lean ====
section
/-! DEFINITION. The requests of the player and the cue ring: Cue Write (R172), Cue Read and Cue Poll
(R174), Player Start (R175), Go (R180), Resume (R187), Abandon (R188) and Player Stop (R189). -/

namespace Sys2Proof.Machine

/-- An index of the cue ring. -/
def cueIxOf (n : Nat) : Option CueIx := if h : n < 16 then some ⟨n, h⟩ else none

/-- A new part with one cue entry replaced. -/
def Part.putCue (s : Part) (i : CueIx) (c : Cue) : Part :=
  { s with player := { s.player with cues := s.player.cues.set i c } }

/-! ## Cue Write, Cue Read -/

/-- R172, R27: the speed clamped to 256–16,384. -/
def clampSpeed (n : Nat) : Nat := max 256 (min n 16384)

/-- R172 step 3: the entry that the fields spell, none when a field is out of its range. -/
def CueFields.toCue (f : CueFields) : Option Cue :=
  match dirIxOf f.slot, maskOfField f.mask, CueTrigger.ofCode f.trigger with
  | some slot, some m, some trigger =>
    if m = 0 ∨ (!f.takeEnd ∧ f.endIx < f.start) then none
    else
      some
        { owner := if f.give then .part else .controller
          slot := slot, start := f.start, endIx := if f.takeEnd then none else some f.endIx
          speed := clampSpeed f.speed, mask := m, trigger := trigger, lock := f.lock
          recordWith := f.recordWith, status := .pending, startFrame := 0 }
  | _, _, _ => none

/-- R172: Cue Write. -/
def Part.requestCueWrite (s : Part) (f : CueFields) : Served :=
  match cueIxOf f.index with
  | none => refuse s .range
  | some i =>
    if s.player.cues[i].owner = .part then refuse s .owned
    else
      match CueFields.toCue f with
      | none => refuse s .range
      | some c => done (s.putCue i c)

/-- R174: Cue Read. -/
def Part.requestCueRead (s : Part) (index : Nat) : Served :=
  match cueIxOf index with
  | none => refuse s .range
  | some i => doneWith s (s.player.cues[i].readBytes i)

/-! ## Polls and Player Start -/

/-- R174, R177: a poll may look at the entry at the pointer. -/
def Part.pollAllowed (s : Part) : Bool :=
  decide (s.player.state = .suspended) && decide (s.seq.state = .running) && !s.zone.recovery

/-- Fetching entered, its reads handed to the take array controller. -/
def Part.fetchNow (s : Part) : Part := s.enterFetching.kick

/-- R174: Cue Poll. -/
def Part.requestCuePoll (s : Part) : Served := if s.pollAllowed then done s.fetchNow else done s

/-- R177: the auto-poll count has reached the interval: it restarts, and the player looks. -/
def Part.checkAutoPoll (s : Part) : Part :=
  if s.player.state = .suspended ∧ s.player.autoInterval ≠ 0 ∧
      s.player.autoInterval ≤ s.player.autoCount then
    let s1 := { s with player := { s.player with autoCount := 0 } }
    if s1.pollAllowed then s1.fetchNow else s1
  else s

/-- R175: Player Start. -/
def Part.requestPlayerStart (s : Part) (interval : Nat) : Served :=
  if s.lane.mode = .setup then refuse s .wrongMode
  else if s.zone.recovery then refuse s .wrongState
  else if s.seq.state ≠ .running then refuse s .wrongState
  else if s.player.state ≠ .stopped then refuse s .wrongState
  else done (Part.fetchNow { s with player := { s.player with autoInterval := interval } })

/-! ## Go, Resume, Abandon, Player Stop -/

/-- R180: Go. -/
def Part.requestGo (s : Part) : Served :=
  if (s.player.state = .approaching ∨ s.player.state = .waiting) ∧ s.player.current.trigger = .go then
    if s.player.state = .waiting ∧ s.prefetchComplete then done s.enterPlaying
    else done { s with player := { s.player with goLatch := true } }
  else refuse s .wrongState

/-- R187 step 4: every played channel's held value lies in its window, and its mode still matches. -/
def Part.resumeAllowed (s : Part) : Bool :=
  ((Mask.slots s.player.played).all fun c => s.heldInside s.player.held c) &&
    s.modesOk s.player.played s.cueTake.info

/-- R187: Resume. -/
def Part.requestResume (s : Part) : Served :=
  if s.lane.mode = .setup then refuse s .wrongMode
  else if s.zone.recovery then refuse s .wrongState
  else if s.seq.state ≠ .running ∨ s.player.state ≠ .halted then refuse s .wrongState
  else if s.resumeAllowed then
    done (Part.enterApproaching { s with player := { s.player with
      haltReason := .none, goLatch := false, resumed := true } })
  else refuse s .blocked

/-- R188: the status of an abandoned cue. -/
def HaltReason.status : HaltReason → CueStatus
  | .none => .halted | .diverged => .diverged | .starved => .starved

/-- R188, R189: the current cue returned with a status, the player Stopped. -/
def Part.stopPlayer (s : Part) (status : CueStatus) : Part :=
  let s1 := s.failCue status
  { s1 with player := { s1.player with state := .stopped } }

/-- R188: Abandon. -/
def Part.requestAbandon (s : Part) : Served :=
  if s.player.state = .halted then done (s.stopPlayer s.player.haltReason.status)
  else refuse s .wrongState

/-- R189: Player Stop. -/
def Part.requestPlayerStop (s : Part) : Served :=
  match s.player.state with
  | .stopped => done s
  | .suspended => done { s with player := { s.player with state := .stopped } }
  | .fetching => done (Part.stopPlayer { s with shaper := s.parkPlayedHere } .aborted)
  | .approaching => done (Part.stopPlayer { s with shaper := s.parkPlayedHere } .aborted)
  | .waiting => done (Part.stopPlayer { s with shaper := s.parkPlayedHere } .aborted)
  | .playing => done (Part.stopPlayer { s with shaper := s.parkPlayedHere } .aborted)
  | .closing => done (Part.stopPlayer { s with shaper := s.parkPlayedHere } .aborted)
  | .halted => done (Part.stopPlayer { s with shaper := s.parkPlayedHere } .aborted)

/-! ## The commands -/

/-- R172: Cue Write read from a served lane. -/
def Part.serveCueWrite (s : Part) (tag : Byte) (body : CueFields) : Part :=
  serveRequest 0x70#8 tag (fun _ t => t.requestCueWrite body) s

/-- R172: the command Cue Write. -/
def execCueWrite (tag : Byte) (body : CueFields) (s : State) : Host.Outcome State Fault Refusal :=
  .next { s with part := s.part.serveCueWrite tag body }

/-- R174: Cue Read read from a served lane. -/
def Part.serveCueRead (s : Part) (tag : Byte) (index : Nat) : Part :=
  serveRequest 0x71#8 tag (fun _ t => t.requestCueRead index) s

/-- R174: the command Cue Read. -/
def execCueRead (tag : Byte) (index : Nat) (s : State) : Host.Outcome State Fault Refusal :=
  .next { s with part := s.part.serveCueRead tag index }

/-- R174: Cue Poll read from a served lane. -/
def Part.serveCuePoll (s : Part) (tag : Byte) : Part :=
  serveRequest 0x72#8 tag (fun _ t => t.requestCuePoll) s

/-- R174: the command Cue Poll. -/
def execCuePoll (tag : Byte) (s : State) : Host.Outcome State Fault Refusal :=
  .next { s with part := s.part.serveCuePoll tag }

/-- R175: Player Start read from a served lane. -/
def Part.servePlayerStart (s : Part) (tag : Byte) (interval : Nat) : Part :=
  serveRequest 0x73#8 tag (fun _ t => t.requestPlayerStart interval) s

/-- R175: the command Player Start. -/
def execPlayerStart (tag : Byte) (interval : Nat) (s : State) : Host.Outcome State Fault Refusal :=
  .next { s with part := s.part.servePlayerStart tag interval }

/-- R189: Player Stop read from a served lane. -/
def Part.servePlayerStop (s : Part) (tag : Byte) : Part :=
  serveRequest 0x74#8 tag (fun _ t => t.requestPlayerStop) s

/-- R189: the command Player Stop. -/
def execPlayerStop (tag : Byte) (s : State) : Host.Outcome State Fault Refusal :=
  .next { s with part := s.part.servePlayerStop tag }

/-- R180: Go read from a served lane. -/
def Part.serveGo (s : Part) (tag : Byte) : Part :=
  serveRequest 0x75#8 tag (fun _ t => t.requestGo) s

/-- R180: the command Go. -/
def execGo (tag : Byte) (s : State) : Host.Outcome State Fault Refusal :=
  .next { s with part := s.part.serveGo tag }

/-- R187: Resume read from a served lane. -/
def Part.serveResume (s : Part) (tag : Byte) : Part :=
  serveRequest 0x76#8 tag (fun _ t => t.requestResume) s

/-- R187: the command Resume. -/
def execResume (tag : Byte) (s : State) : Host.Outcome State Fault Refusal :=
  .next { s with part := s.part.serveResume tag }

/-- R188: Abandon read from a served lane. -/
def Part.serveAbandon (s : Part) (tag : Byte) : Part :=
  serveRequest 0x77#8 tag (fun _ t => t.requestAbandon) s

/-- R188: the command Abandon. -/
def execAbandon (tag : Byte) (s : State) : Host.Outcome State Fault Refusal :=
  .next { s with part := s.part.serveAbandon tag }

end Sys2Proof.Machine
end

