-- ==== Sys2Proof/Machine/ServiceRequests.lean ====
section
/-! DEFINITION. The requests of the gateway, the service lane unit and the stop sequencer: Gateway Set
(R9), Mode (R28 to R31), Stop (R86), Rearm (R98, R99) and Continue (R103); and Sync Set of the sync unit (R131). -/

namespace Sys2Proof.Machine

/-- R9: Gateway Set. -/
def Part.requestGatewaySet (s : Part) (period missLimit : Nat) : Served :=
  if s.lane.mode = .run then refuse s .wrongMode
  else if 250 ≤ period ∧ period ≤ 4000 ∧ 1 ≤ missLimit ∧ missLimit ≤ 8 then
    done { s with gateway := { s.gateway with period := period, missLimit := missLimit } }
  else refuse s .range

/-! ## Mode (R28 to R31) -/

/-- R29: the axis table is valid. -/
def Shaper.tableValid (sh : Shaper) : Bool :=
  !sh.motion.isEmpty && allSlots.all fun c => !sh.axes[c].present || sh.axes[c].set

/-- R29: the conditions of a Mode request for Run. -/
def Part.runAllowed (s : Part) : Bool :=
  s.shaper.tableValid &&
  allSlots.all fun c =>
    let f := s.gateway.feedback[c]
    !s.shaper.axes[c].present ||
      (!f.stale && within f.actual s.shaper.axes[c].pmin s.shaper.axes[c].pmax)

/-- R29, R42: a present lens channel whose mode is not Off is driven from the change to Run on. -/
def Part.drivenLens (s : Part) (l : LensIx) : Bool :=
  s.shaper.axes[LensIx.slot l].present && decide (s.lens.chans[l].mode ≠ .off)

/-- A channel that takes up its shaped state on Live (R39). -/
def Part.takeUpLive (s : Part) (c : Slot) (ch : Channel) : Channel :=
  ch.takeUp s.gateway.feedback[c].actual (fineWindow (s.window c)) .live

/-- R118: a lens channel's record after the change to Run, its channel taken up at a position. -/
def Part.runLens (s : Part) (l : LensIx) (position : Int) : LensChannel :=
  if s.drivenLens l then s.lens.chans[l].setLastDemand (countOf position) else s.lens.chans[l]

/-- R29, R42, R118: the part mode becomes Run. -/
def Part.enterRun (s : Part) : Part :=
  let sh := s.shaper.mapChans fun c ch =>
    match lensOf c with
    | none => ch
    | some l => if s.drivenLens l then s.takeUpLive c ch else ch
  let chans := Vector.ofFn fun l : LensIx => s.runLens l sh.chans[LensIx.slot l].p
  { s with
    lane := { s.lane with mode := .run }
    shaper := sh
    lens := { s.lens with chans := chans } }

/-- R30, R31: the part mode becomes Setup. -/
def Part.enterSetup (s : Part) : Part :=
  Part.returnAllCues { s with
    lane := { s.lane with mode := .setup }
    shaper := s.shaper.mapChans fun _ ch => ch.withSource .track }

/-- R28: Mode. -/
def Part.requestMode (s : Part) (want : Nat) : Served :=
  match PartMode.ofCode want with
  | none => refuse s .range
  | some m =>
    if m = .run ∧ s.array.scanning then refuse s .busy
    else if m = s.lane.mode then done s
    else
      match m with
      | .run => if s.runAllowed then done s.enterRun else refuse s .blocked
      | .setup => if s.seq.state = .safeOff then done s.enterSetup else refuse s .wrongState

/-! ## Stop, Rearm and Continue -/

/-- R86: Stop. -/
def Part.requestStop (s : Part) (category : Nat) : Served :=
  match Category.ofCode category with
  | none => refuse s .range
  | some c => done (s.post .request c 0)

/-- R98: Rearm. -/
def Part.requestRearm (s : Part) (recover : Nat) : Served :=
  if s.lane.mode = .setup then refuse s .wrongMode
  else
    match flagOfCode recover with
    | none => refuse s .range
    | some r =>
      if s.seq.state ≠ .safeOff then refuse s .wrongState
      else if s.rearmAllowed r then done (s.rearm r)
      else refuse s .blocked

/-- R103: Continue. -/
def Part.requestContinue (s : Part) : Served :=
  if s.lane.mode = .setup then refuse s .wrongMode
  else if s.seq.state ≠ .holding then refuse s .wrongState
  else if s.seq.guardOpen ∨ (!s.zone.clear ∧ !s.zone.recovery) then refuse s .blocked
  else done s.continueRunning

/-! ## Sync Set -/

/-- R131, R158: the recorder is Armed or Recording, a stall included. -/
def RecorderState.holdsCount : RecorderState → Bool
  | .armed => true | .recording => true | .stalled => true | .idle => false | .closing => false

/-- R131: Sync Set. The preset flag is bit 0 of its byte (log 16). -/
def Part.requestSyncSet (s : Part) (weight preset value : Nat) : Served :=
  if 255 < weight then refuse s .range
  else if preset.testBit 0 && s.recorder.state.holdsCount then refuse s .busy
  else
    done { s with sync := { s.sync with
      weight := weight
      frameCount := if preset.testBit 0 then BitVec.ofNat 32 value else s.sync.frameCount } }

/-! ## The commands -/

/-- R9: Gateway Set read from a served lane. -/
def Part.serveGatewaySet (s : Part) (tag : Byte) (period missLimit : Nat) : Part :=
  serveRequest 0x01#8 tag (fun _ t => t.requestGatewaySet period missLimit) s

/-- R9: the command Gateway Set. -/
def execGatewaySet (tag : Byte) (period missLimit : Nat) (s : State) : Host.Outcome State Fault Refusal :=
  .next { s with part := s.part.serveGatewaySet tag period missLimit }

/-- R28 to R31: Mode read from a served lane. -/
def Part.serveMode (s : Part) (tag : Byte) (want : Nat) : Part :=
  serveRequest 0x02#8 tag (fun _ t => t.requestMode want) s

/-- R28 to R31: the command Mode. -/
def execMode (tag : Byte) (want : Nat) (s : State) : Host.Outcome State Fault Refusal :=
  .next { s with part := s.part.serveMode tag want }

/-- R86: Stop read from a served lane. -/
def Part.serveStop (s : Part) (tag : Byte) (category : Nat) : Part :=
  serveRequest 0x30#8 tag (fun _ t => t.requestStop category) s

/-- R86: the command Stop. -/
def execStop (tag : Byte) (category : Nat) (s : State) : Host.Outcome State Fault Refusal :=
  .next { s with part := s.part.serveStop tag category }

/-- R98, R99: Rearm read from a served lane. -/
def Part.serveRearm (s : Part) (tag : Byte) (recover : Nat) : Part :=
  serveRequest 0x31#8 tag (fun _ t => t.requestRearm recover) s

/-- R98, R99: the command Rearm. -/
def execRearm (tag : Byte) (recover : Nat) (s : State) : Host.Outcome State Fault Refusal :=
  .next { s with part := s.part.serveRearm tag recover }

/-- R103: Continue read from a served lane. -/
def Part.serveContinueStop (s : Part) (tag : Byte) : Part :=
  serveRequest 0x32#8 tag (fun _ t => t.requestContinue) s

/-- R103: the command Continue. -/
def execContinueStop (tag : Byte) (s : State) : Host.Outcome State Fault Refusal :=
  .next { s with part := s.part.serveContinueStop tag }

/-- R131: Sync Set read from a served lane. -/
def Part.serveSyncSet (s : Part) (tag : Byte) (weight preset value : Nat) : Part :=
  serveRequest 0x50#8 tag (fun _ t => t.requestSyncSet weight preset value) s

/-- R131: the command Sync Set. -/
def execSyncSet (tag : Byte) (weight preset value : Nat) (s : State) : Host.Outcome State Fault Refusal :=
  .next { s with part := s.part.serveSyncSet tag weight preset value }

end Sys2Proof.Machine
end

