-- ==== Sys2Proof/Machine/TakeRequests.lean ====
section
/-! DEFINITION. The requests of the take array controller (R147 to R156) and of the recorder (R159,
R170). -/

namespace Sys2Proof.Machine

/-! ## What the checks ask -/

/-- R148, R150, R154 to R156: the scan runs or a clear is under way. -/
def TakeArray.occupied (t : TakeArray) : Bool := t.scanning || t.clearing

/-- The slot holds a finished take: Closed or Truncated. -/
def SlotState.finished : SlotState → Bool
  | .closed => true | .truncated => true
  | .empty => false | .recording => false | .importing => false | .retiring => false

/-- R148 step 5: a part-owned cue names the slot. -/
def Player.names (p : Player) (i : DirIx) : Bool :=
  (List.finRange 16).any fun c : CueIx => decide (p.cues[c].owner = .part) && p.cues[c].slot == i

/-- The job is of the service lane. -/
def Job.ofLane : Job → Bool
  | .takeRead _ _ _ => true
  | .writeHeader _ _ => true
  | .writeData _ _ _ _ => true
  | .lock _ _ _ => true
  | .retire _ _ => true
  | .clearRetire _ _ => true
  | .playerRead _ _ => false
  | .recorderHeader _ _ => false
  | .recorderData _ _ _ _ => false

/-- R152 step 4: a lane request for the array waits or is in progress. -/
def TakeArray.laneBusy (t : TakeArray) : Bool :=
  !t.laneJobs.isEmpty ||
  match t.operation with
  | some (.job j _) => j.ofLane
  | _ => false

/-! ## Directory Read, Take Erase, Take Lock, Protection Freeze -/

/-- R147: Directory Read. -/
def Part.requestDirectoryRead (s : Part) (slot : Nat) : Served :=
  match dirIxOf slot with
  | none => refuse s .range
  | some i =>
    if s.array.scanning then refuse s .busy else doneWith s (s.array.directory[i].readBytes i)

/-- R148: an accepted Take Erase: the slot becomes Retiring and its chain-0 bay's retire is
placed. -/
def Part.eraseTake (s : Part) (i : DirIx) : Part :=
  let d := s.array.directory[i]
  Part.addLaneJobs { s with array := s.array.setSlot i { d with state := .retiring } }
    (d.bays.head?.toList.map fun b => .retire i b)

/-- R148: Take Erase. -/
def Part.requestTakeErase (s : Part) (slot : Nat) : Served :=
  match dirIxOf slot with
  | none => refuse s .range
  | some i =>
    let d := s.array.directory[i]
    if s.array.occupied then refuse s .busy
    else if !d.state.finished then refuse s .wrongState
    else if d.locked then refuse s .locked
    else if d.lockPending || s.player.names i then refuse s .busy
    else started (s.eraseTake i)

/-- R150: an accepted Take Lock. -/
def Part.lockTake (s : Part) (i : DirIx) (ticket : Nat) : Part :=
  let d := s.array.directory[i]
  Part.addLaneJobs { s with array := s.array.setSlot i { d with lockPending := true } }
    (d.bays.head?.toList.map fun b => .lock ticket i b)

/-- R150: Take Lock. -/
def Part.requestTakeLock (s : Part) (slot : Nat) (ticket : Nat) : Served :=
  match dirIxOf slot with
  | none => refuse s .range
  | some i =>
    let d := s.array.directory[i]
    if s.array.occupied then refuse s .busy
    else if s.array.freeze then refuse s .frozen
    else if !d.state.finished then refuse s .wrongState
    else if d.lockPending then refuse s .busy
    else if d.locked then done s
    else (s.lockTake i ticket, none)

/-- R151: Protection Freeze. -/
def Part.requestFreeze (s : Part) : Served :=
  done { s with array := { s.array with freeze := true } }

/-! ## Array Clear (R152) -/

/-- R152: a slot when a clear is accepted. R146 sets an end reason when a take leaves Importing, but names
none for a clear: an Importing slot that becomes Retiring keeps the end reason none (log 51). -/
def DirectorySlot.cleared (d : DirectorySlot) : DirectorySlot :=
  match d.state with
  | .closed => { d with state := .retiring }
  | .truncated => { d with state := .retiring }
  | .importing => if d.bays.isEmpty then DirectorySlot.reset else { d with state := .retiring }
  | .empty => d
  | .recording => d
  | .retiring => d

/-- R152: an accepted Array Clear: the first retire is placed, or the clear ends at once. -/
def Part.clearArray (s : Part) : Part :=
  let t := { s.array with
    directory := Vector.ofFn fun i : DirIx => s.array.directory[i].cleared
    clearing := true }
  match t.retiring with
  | [] => { s with array := { t with clearing := false } }
  | p :: _ => Part.addLaneJobs { s with array := t } [.clearRetire p.1 p.2]

/-- R152 step 4: a slot is Recording or Retiring. -/
def TakeArray.slotBusy (t : TakeArray) : Bool :=
  (List.finRange 64).any fun i : DirIx =>
    decide (t.directory[i].state = .recording) || decide (t.directory[i].state = .retiring)

/-- R152: Array Clear. -/
def Part.requestArrayClear (s : Part) : Served :=
  if s.lane.mode = .run then refuse s .wrongMode
  else if s.array.scanning then refuse s .busy
  else if s.array.freeze then refuse s .frozen
  else if s.array.slotBusy || s.array.laneBusy || s.array.clearing then refuse s .busy
  else started s.clearArray

/-! ## Take Read (R153) -/

/-- R153 step 4: the page exists but is not yet to be read from the array. -/
def Part.pageNotYet (s : Part) (i : DirIx) (page : Nat) : Bool :=
  let d := s.array.directory[i]
  match d.state with
  | .recording => s.recorder.holds page
  | .importing => decide (d.dataPages ≤ page) && decide (page < d.nextPage)
  | .empty => false
  | .closed => false
  | .truncated => false
  | .retiring => false

/-- R153: Take Read. -/
def Part.requestTakeRead (s : Part) (slot page : Nat) (ticket : Nat) : Served :=
  match dirIxOf slot with
  | none => refuse s .range
  | some i =>
    let d := s.array.directory[i]
    if 130559 < page then refuse s .range
    else if s.array.scanning then refuse s .busy
    else if d.state = .empty ∨ d.state = .retiring then refuse s .wrongState
    else if s.pageNotYet i page then refuse s .notYet
    else if d.dataPages ≤ page then refuse s .range
    else (s.addLaneJobs [.takeRead ticket i page], none)

/-! ## Imports (R154 to R156) -/

/-- R154: the lens modes of a Take Import, none when one is not allowed. -/
def importModes (m : Vector Nat 4) : Option (Vector LensMode 4) :=
  match LensMode.ofCode m[0], LensMode.ofCode m[1], LensMode.ofCode m[2], LensMode.ofCode m[3] with
  | some m0, some m1, some m2, some m3 =>
    if m1 = .follow ∨ m2 = .follow ∨ m3 = .follow then none else some #v[m0, m1, m2, m3]
  | _, _, _, _ => none

/-- R146: a slot opened for a take, its serial taken from the counter. -/
def TakeArray.openSlot (t : TakeArray) (i : DirIx) (state : SlotState) (mask : Mask) (divisor : Nat)
    (modes : Vector LensMode 4) : TakeArray :=
  { t.setSlot i { DirectorySlot.reset with
      state := state
      info := { serial := t.serial, mask := mask, divisor := divisor, modes := modes,
                startFrame := 0 } } with
    serial := t.serial + 1 }

/-- R154: Take Import. -/
def Part.requestTakeImport (s : Part) (f : ImportFields) : Served :=
  match dirIxOf f.slot, maskOfField f.mask, importModes f.modes with
  | some i, some mask, some modes =>
    if mask = 0 ∨ f.divisor < 1 ∨ 16 < f.divisor then refuse s .range
    else if s.array.occupied then refuse s .busy
    else if s.array.directory[i].state ≠ .empty then refuse s .wrongState
    else if !s.array.serialAvailable then refuse s .noSpace
    else done { s with array := s.array.openSlot i .importing mask f.divisor modes }
  | _, _, _ => refuse s .range

/-- R155 step 4: the order of the entries of a page is allowed: no Hold of 0, none before any Sample
of the take, nothing after an End. -/
def entriesAllowed : Bool → List Entry → Bool
  | _, [] => true
  | _, .sample _ :: rest => entriesAllowed true rest
  | seen, .hold count :: rest => count != 0 && seen && entriesAllowed seen rest
  | seen, .mark _ _ _ :: rest => entriesAllowed seen rest
  | seen, .gap _ :: rest => entriesAllowed seen rest
  | _, .finish :: rest => rest.isEmpty

/-- A page's entries hold a Sample. -/
def hasSample (es : List Entry) : Bool :=
  es.any fun e => match e with
    | .sample _ => true
    | _ => false

/-- R155 step 4: the entries of a page offered to a slot, none when they are refused. -/
def DirectorySlot.pageEntries (d : DirectorySlot) (page : List Byte) : Option (List Entry) :=
  match parseEntries (Mask.size d.info.mask) page with
  | none => none
  | some es =>
    if es.isEmpty || d.endAccepted || !entriesAllowed d.sampleSeen es then none else some es

/-- R155: an importing slot after it has accepted a page. -/
def DirectorySlot.acceptPage (d : DirectorySlot) (es : List Entry) : DirectorySlot :=
  { d with
    nextPage := d.nextPage + 1
    endAccepted := d.endAccepted || hasEnd es
    sampleSeen := d.sampleSeen || hasSample es }

/-- R155: an accepted Page Write; `header` is the program of a bay claimed for it. -/
def Part.acceptWrite (s : Part) (i : DirIx) (page : List Byte) (es : List Entry) (ticket : Nat)
    (header : List Job) : Part :=
  let d := s.array.directory[i]
  Part.addLaneJobs { s with array := s.array.setSlot i (d.acceptPage es) }
    (header ++ [.writeData ticket i d.nextPage page])

/-- R155 step 5: the bay of a page is claimed where the page starts one. -/
def Part.placePage (s : Part) (i : DirIx) (page : List Byte) (es : List Entry) (ticket : Nat) :
    Served :=
  let d := s.array.directory[i]
  if d.nextPage % 255 = 0 then
    match s.array.claim i with
    | none => refuse s .noSpace
    | some (bay, t) =>
      (Part.acceptWrite { s with array := t } i page es ticket
        [.writeHeader bay ⟨i, d.bays.length, d.info⟩], none)
  else (s.acceptWrite i page es ticket [], none)

/-- R155: Page Write. -/
def Part.requestPageWrite (s : Part) (slot : Nat) (page : List Byte) (ticket : Nat) : Served :=
  match dirIxOf slot with
  | none => refuse s .range
  | some i =>
    let d := s.array.directory[i]
    if page.length ≠ 254 then refuse s .invalid
    else if s.array.occupied then refuse s .busy
    else if d.state ≠ .importing then refuse s .wrongState
    else
      match d.pageEntries page with
      | none => refuse s .invalid
      | some es => s.placePage i page es ticket

/-- R156: Import Close. -/
def Part.requestImportClose (s : Part) (slot : Nat) : Served :=
  match dirIxOf slot with
  | none => refuse s .range
  | some i =>
    let d := s.array.directory[i]
    if s.array.occupied then refuse s .busy
    else if d.state ≠ .importing then refuse s .wrongState
    else if d.dataPages < d.nextPage then refuse s .busy
    else if !d.endAccepted then refuse s .invalid
    else
      done { s with array := s.array.setSlot i { d with state := .closed, endReason := .requested } }

/-! ## The recorder's requests -/

/-- R159: an accepted Record Start. -/
def Part.openRecording (s : Part) (i : DirIx) (trigger : RecorderTrigger) (t : TakeArray) : Part :=
  { s with
    array := t
    recorder := { s.recorder with
      state := .armed, slot := some i, trigger := trigger, frameSeen := false, whole := true
      pendingHold := 0, bufferA := PageBuffer.empty, bufferB := PageBuffer.empty, nextPage := 0
      reserved := none, stallCount := 0, missed := 0, overflow := false } }

/-- R159 steps 3 and 4: a mask that Record Start may name: the result that refuses it. -/
def Part.maskRefusal (s : Part) (m : Mask) : Option ResultCode :=
  if m = 0 ∨ (Mask.slots m).any (fun c => !s.shaper.axes[c].present) then some .range
  else if (List.finRange 4).any fun l : LensIx =>
      Mask.has m (LensIx.slot l) && decide (s.lens.chans[l].mode = .off) then some .invalid
  else none

/-- R159 steps 5 to 8 and acceptance. -/
def Part.judgeRecord (s : Part) (i : DirIx) (m : Mask) (divisor : Nat) (trigger : RecorderTrigger) :
    Served :=
  if s.seq.state ≠ .running then refuse s .wrongState
  else if s.recorder.state ≠ .idle then refuse s .busy
  else if s.array.directory[i].state ≠ .empty then refuse s .wrongState
  else if !s.array.serialAvailable then refuse s .noSpace
  else
    let modes := Vector.ofFn fun l : LensIx => s.lens.chans[l].mode
    match (s.array.openSlot i .recording m divisor modes).claim i with
    | none => refuse s .noSpace
    | some (_, t) => done (s.openRecording i trigger t)

/-- R159: Record Start. -/
def Part.requestRecordStart (s : Part) (f : RecordStartFields) : Served :=
  if s.array.scanning then refuse s .busy
  else if s.lane.mode = .setup then refuse s .wrongMode
  else
    match dirIxOf f.slot, maskOfField f.mask, RecorderTrigger.ofCode f.trigger with
    | some i, some m, some trigger =>
      if m = 0 ∨ f.divisor < 1 ∨ 16 < f.divisor then refuse s .range
      else
        match s.maskRefusal m with
        | some code => refuse s code
        | none => s.judgeRecord i m f.divisor trigger
    | _, _, _ => refuse s .range

/-- R170: Record Stop. -/
def Part.requestRecordStop (s : Part) : Served :=
  match s.recorder.state with
  | .idle => refuse s .wrongState
  | .armed => done s.closeArmed
  | .recording => done (s.closeRecording .requested)
  | .stalled => done (s.closeRecording .requested)
  | .closing => done s

/-! ## The commands -/

/-- R159: Record Start read from a served lane. -/
def Part.serveRecordStart (s : Part) (tag : Byte) (body : RecordStartFields) : Part :=
  serveRequest 0x60#8 tag (fun _ t => t.requestRecordStart body) s

/-- R159: the command Record Start. -/
def execRecordStart (tag : Byte) (body : RecordStartFields) (s : State) : Host.Outcome State Fault Refusal :=
  .next { s with part := s.part.serveRecordStart tag body }

/-- R168 to R170: Record Stop read from a served lane. -/
def Part.serveRecordStop (s : Part) (tag : Byte) : Part :=
  serveRequest 0x61#8 tag (fun _ t => t.requestRecordStop) s

/-- R168 to R170: the command Record Stop. -/
def execRecordStop (tag : Byte) (s : State) : Host.Outcome State Fault Refusal :=
  .next { s with part := s.part.serveRecordStop tag }

/-- R148: Take Erase read from a served lane. -/
def Part.serveTakeErase (s : Part) (tag : Byte) (slot : Nat) : Part :=
  serveRequest 0x62#8 tag (fun _ t => t.requestTakeErase slot) s

/-- R148: the command Take Erase. -/
def execTakeErase (tag : Byte) (slot : Nat) (s : State) : Host.Outcome State Fault Refusal :=
  .next { s with part := s.part.serveTakeErase tag slot }

/-- R150: Take Lock read from a served lane. -/
def Part.serveTakeLock (s : Part) (tag : Byte) (slot : Nat) : Part :=
  serveRequest 0x63#8 tag (fun k t => t.requestTakeLock slot k) s

/-- R150: the command Take Lock. -/
def execTakeLock (tag : Byte) (slot : Nat) (s : State) : Host.Outcome State Fault Refusal :=
  .next { s with part := s.part.serveTakeLock tag slot }

/-- R151: Protection Freeze read from a served lane. -/
def Part.serveProtectionFreeze (s : Part) (tag : Byte) : Part :=
  serveRequest 0x64#8 tag (fun _ t => t.requestFreeze) s

/-- R151: the command Protection Freeze. -/
def execProtectionFreeze (tag : Byte) (s : State) : Host.Outcome State Fault Refusal :=
  .next { s with part := s.part.serveProtectionFreeze tag }

/-- R152: Array Clear read from a served lane. -/
def Part.serveArrayClear (s : Part) (tag : Byte) : Part :=
  serveRequest 0x65#8 tag (fun _ t => t.requestArrayClear) s

/-- R152: the command Array Clear. -/
def execArrayClear (tag : Byte) (s : State) : Host.Outcome State Fault Refusal :=
  .next { s with part := s.part.serveArrayClear tag }

/-- R147: Directory Read read from a served lane. -/
def Part.serveDirectoryRead (s : Part) (tag : Byte) (slot : Nat) : Part :=
  serveRequest 0x66#8 tag (fun _ t => t.requestDirectoryRead slot) s

/-- R147: the command Directory Read. -/
def execDirectoryRead (tag : Byte) (slot : Nat) (s : State) : Host.Outcome State Fault Refusal :=
  .next { s with part := s.part.serveDirectoryRead tag slot }

/-- R153: Take Read read from a served lane. -/
def Part.serveTakeRead (s : Part) (tag : Byte) (slot page : Nat) : Part :=
  serveRequest 0x67#8 tag (fun k t => t.requestTakeRead slot page k) s

/-- R153: the command Take Read. -/
def execTakeRead (tag : Byte) (slot page : Nat) (s : State) : Host.Outcome State Fault Refusal :=
  .next { s with part := s.part.serveTakeRead tag slot page }

/-- R154: Take Import read from a served lane. -/
def Part.serveTakeImport (s : Part) (tag : Byte) (body : ImportFields) : Part :=
  serveRequest 0x68#8 tag (fun _ t => t.requestTakeImport body) s

/-- R154: the command Take Import. -/
def execTakeImport (tag : Byte) (body : ImportFields) (s : State) : Host.Outcome State Fault Refusal :=
  .next { s with part := s.part.serveTakeImport tag body }

/-- R155: Page Write read from a served lane. -/
def Part.servePageWrite (s : Part) (tag : Byte) (slot : Nat) (page : List Byte) : Part :=
  serveRequest 0x69#8 tag (fun k t => t.requestPageWrite slot page k) s

/-- R155: the command Page Write. -/
def execPageWrite (tag : Byte) (slot : Nat) (page : List Byte) (s : State) : Host.Outcome State Fault Refusal :=
  .next { s with part := s.part.servePageWrite tag slot page }

/-- R156: Import Close read from a served lane. -/
def Part.serveImportClose (s : Part) (tag : Byte) (slot : Nat) : Part :=
  serveRequest 0x6A#8 tag (fun _ t => t.requestImportClose slot) s

/-- R156: the command Import Close. -/
def execImportClose (tag : Byte) (slot : Nat) (s : State) : Host.Outcome State Fault Refusal :=
  .next { s with part := s.part.serveImportClose tag slot }

end Sys2Proof.Machine
end

