-- ==== Sys2Proof/Machine/ZoneRequests.lean ====
section
/-! DEFINITION. The requests of the zone monitor: Geometry Set (R56), Zone Set (R62 to R65), Zone Clear
(R66), Live Zone Update (R67) and Zone Read (R69). -/

namespace Sys2Proof.Machine

/-- An index of the zone table. -/
def zoneIxOf (n : Nat) : Option ZoneIx := if h : n < 16 then some ⟨n, h⟩ else none

/-! ## Geometry Set (R56) -/

/-- R56: the constants lie in their ranges. -/
def GeometryFields.inRange (g : GeometryFields) : Bool :=
  decide (g.lb ≤ 16777216) && within g.x0 (-stageLimit) stageLimit &&
  within g.y0 (-stageLimit) stageLimit && within g.z0 (-stageLimit) stageLimit

/-- Geometry Set. -/
def Part.requestGeometrySet (s : Part) (g : GeometryFields) : Served :=
  if s.lane.mode = .run then refuse s .wrongMode
  else if GeometryFields.inRange g then
    done { s with zone := { s.zone with geometry := ⟨g.lb, g.x0, g.y0, g.z0, g.swing, g.lift⟩ } }
  else refuse s .range

/-! ## Zone Set (R62 to R65) -/

/-- R27: a box with each coordinate clamped. -/
def Box.clamped (b : Box) : Box :=
  { xmin := clampCoord b.xmin, xmax := clampCoord b.xmax, ymin := clampCoord b.ymin,
    ymax := clampCoord b.ymax, zmin := clampCoord b.zmin, zmax := clampCoord b.zmax }

/-- No minimum lies above its maximum. -/
def Box.ordered (b : Box) : Bool :=
  decide (b.xmin ≤ b.xmax) && decide (b.ymin ≤ b.ymax) && decide (b.zmin ≤ b.zmax)

/-- Box a contains box b on every face. -/
def Box.contains (a b : Box) : Bool :=
  decide (a.xmin ≤ b.xmin) && decide (b.xmax ≤ a.xmax) && decide (a.ymin ≤ b.ymin) &&
  decide (b.ymax ≤ a.ymax) && decide (a.zmin ≤ b.zmin) && decide (b.zmax ≤ a.zmax)

/-- R62 step 2: the response read for a KeepOut or KeepIn entry. A Slow entry's is not read, and the
entry holds the reset value (log 35). -/
def ZoneFields.readResponse (f : ZoneFields) (kind : ZoneKind) : Option Category :=
  match kind with
  | .slow => some .hold
  | .keepOut => Category.ofCode f.response
  | .keepIn => Category.ofCode f.response

/-- R62 step 2: the scale read for a Slow entry; another entry holds the reset value (log 35). -/
def ZoneFields.readScale (f : ZoneFields) (kind : ZoneKind) : Option Nat :=
  match kind with
  | .slow => if 256 ≤ f.scale ∧ f.scale ≤ 4095 then some f.scale else none
  | .keepOut => some 4095
  | .keepIn => some 4095

/-- R62 step 2, R65: the refresh limit and growth read for a Live entry; a Static entry takes the
reset values. -/
def ZoneFields.readAgeing (f : ZoneFields) (state : ZoneState) : Option (Nat × Nat) :=
  match state with
  | .live =>
    if 1 ≤ f.refresh ∧ f.refresh ≤ 65535 ∧ f.growth ≤ 65535 then some (f.refresh, f.growth) else none
  | .static => some (1, 0)
  | .unused => none

/-- R62 steps 2 and 3: the entry that the fields spell, its box clamped; none when a field is out of
its range. -/
def ZoneFields.toEntry (f : ZoneFields) : Option ZoneEntry :=
  match ZoneState.ofCode f.state, ZoneKind.ofCode f.kind with
  | some state, some kind =>
    match ZoneFields.readResponse f kind, ZoneFields.readScale f kind, ZoneFields.readAgeing f state with
    | some response, some scale, some ageing =>
      if f.margin ≤ 1048576 then
        let box := Box.clamped f.box
        some
          { state := state, kind := kind, box := box, margin := f.margin, response := response,
            scale := scale, refresh := ageing.1, growth := ageing.2, age := 0, effective := box }
      else none
    | _, _, _ => none
  | _, _ => none

/-- R62 step 4: the box is inverted, or the entry is a Live KeepIn. -/
def ZoneEntry.inconsistent (z : ZoneEntry) : Bool :=
  !Box.ordered z.box || (decide (z.state = .live) && decide (z.kind = .keepIn))

/-- R63: the order of the categories. -/
def Category.atLeast (new old : Category) : Bool := decide (old.code ≤ new.code)

/-- R63: every field of the new entry is as strict as the one it replaces. -/
def ZoneEntry.asStrict (new old : ZoneEntry) : Bool :=
  match old.state with
  | .unused => true
  | _ =>
    decide (new.state = old.state) && decide (new.kind = old.kind) &&
    (match old.kind with
      | .keepIn => Box.contains old.effective new.box && new.response.atLeast old.response
      | .keepOut => Box.contains new.box old.effective && new.response.atLeast old.response
      | .slow => Box.contains new.box old.effective && decide (new.scale ≤ old.scale)) &&
    decide (old.margin ≤ new.margin) &&
    (decide (old.state ≠ .live) || (decide (new.refresh ≤ old.refresh) && decide (old.growth ≤ new.growth)))

/-- R64: a KeepOut or KeepIn entry that either tip of the tip record hits. -/
def ZoneMonitor.barredBy (m : ZoneMonitor) (z : ZoneEntry) : Bool :=
  z.kind.bars && (z.hitBy m.currentTip || z.hitBy m.stopTip)

/-- An entry of the zone table replaced, and the masks and the scale re-evaluated (R65, R66, R72). -/
def Part.putZone (s : Part) (i : ZoneIx) (z : ZoneEntry) : Part :=
  Part.reevaluate { s with zone := { s.zone with zones := s.zone.zones.set i z } }

/-- R62 step 5, R63, R64: an entry judged in Run, or accepted in Setup. -/
def Part.judgeZone (s : Part) (i : ZoneIx) (z : ZoneEntry) : Served :=
  match s.lane.mode with
  | .setup => done (s.putZone i z)
  | .run =>
    if !z.asStrict s.zone.zones[i] then refuse s .wrongMode
    else if s.zone.barredBy z then refuse s .unreachable
    else done (s.putZone i z)

/-- Zone Set. -/
def Part.requestZoneSet (s : Part) (f : ZoneFields) : Served :=
  match zoneIxOf f.index, ZoneFields.toEntry f with
  | some i, some z => if z.inconsistent then refuse s .invalid else s.judgeZone i z
  | _, _ => refuse s .range

/-! ## Zone Clear, Live Zone Update, Zone Read -/

/-- R66: Zone Clear. -/
def Part.requestZoneClear (s : Part) (index : Nat) : Served :=
  match zoneIxOf index with
  | none => refuse s .range
  | some i =>
    if s.lane.mode = .run then refuse s .wrongMode else done (s.putZone i ZoneEntry.reset)

/-- R67: Live Zone Update. -/
def Part.requestLiveZoneUpdate (s : Part) (index : Nat) (box : Box) : Served :=
  if s.lane.mode = .setup then refuse s .wrongMode
  else
    match zoneIxOf index with
    | none => refuse s .range
    | some i =>
      let z := s.zone.zones[i]
      let b := Box.clamped box
      if z.state ≠ .live then refuse s .wrongState
      else if !Box.ordered b then refuse s .invalid
      else done (s.putZone i { z with box := b, effective := b, age := 0 })

/-- R69: Zone Read. -/
def Part.requestZoneRead (s : Part) (index : Nat) : Served :=
  match zoneIxOf index with
  | none => refuse s .range
  | some i => doneWith s (s.zone.readBytes i)

/-! ## The commands -/

/-- R56: Geometry Set read from a served lane. -/
def Part.serveGeometrySet (s : Part) (tag : Byte) (body : GeometryFields) : Part :=
  serveRequest 0x20#8 tag (fun _ t => t.requestGeometrySet body) s

/-- R56: the command Geometry Set. -/
def execGeometrySet (tag : Byte) (body : GeometryFields) (s : State) : Host.Outcome State Fault Refusal :=
  .next { s with part := s.part.serveGeometrySet tag body }

/-- R62 to R65: Zone Set read from a served lane. -/
def Part.serveZoneSet (s : Part) (tag : Byte) (body : ZoneFields) : Part :=
  serveRequest 0x21#8 tag (fun _ t => t.requestZoneSet body) s

/-- R62 to R65: the command Zone Set. -/
def execZoneSet (tag : Byte) (body : ZoneFields) (s : State) : Host.Outcome State Fault Refusal :=
  .next { s with part := s.part.serveZoneSet tag body }

/-- R66: Zone Clear read from a served lane. -/
def Part.serveZoneClear (s : Part) (tag : Byte) (index : Nat) : Part :=
  serveRequest 0x22#8 tag (fun _ t => t.requestZoneClear index) s

/-- R66: the command Zone Clear. -/
def execZoneClear (tag : Byte) (index : Nat) (s : State) : Host.Outcome State Fault Refusal :=
  .next { s with part := s.part.serveZoneClear tag index }

/-- R67: Live Zone Update read from a served lane. -/
def Part.serveLiveZoneUpdate (s : Part) (tag : Byte) (index : Nat) (box : Box) : Part :=
  serveRequest 0x23#8 tag (fun _ t => t.requestLiveZoneUpdate index box) s

/-- R67: the command Live Zone Update. -/
def execLiveZoneUpdate (tag : Byte) (index : Nat) (box : Box) (s : State) : Host.Outcome State Fault Refusal :=
  .next { s with part := s.part.serveLiveZoneUpdate tag index box }

/-- R69: Zone Read read from a served lane. -/
def Part.serveZoneRead (s : Part) (tag : Byte) (index : Nat) : Part :=
  serveRequest 0x24#8 tag (fun _ t => t.requestZoneRead index) s

/-- R69: the command Zone Read. -/
def execZoneRead (tag : Byte) (index : Nat) (s : State) : Host.Outcome State Fault Refusal :=
  .next { s with part := s.part.serveZoneRead tag index }

end Sys2Proof.Machine
end

