-- ==== Sys2Proof/Machine/ServedCycle.lean ====
section
/-! DEFINITION. A served cycle from its demands to its drive frame (R4 to R8, R44, R52, R70, R89, R178,
R181), and the reading of a service lane (R19 to R24, R32). -/

namespace Sys2Proof.Machine

/-! ## The gateway's part (R4, R6, R7) -/

/-- R4, R7: the demand record shifts. -/
def Demand.shift (d : Demand) (value : Int) : Demand := { last := value, before := d.last }

/-- R4: the demand of a slot: its valid value, or the last demand. -/
def Demand.served (d : Demand) (slot : DemandSlot) : Demand := d.shift (slot.getD d.last)

/-- R7: the demand of a fill cycle. -/
def Demand.extrapolated (d : Demand) : Demand := d.shift (saturate32 (d.last + (d.last - d.before)))

/-- R2, R4, R6: the gateway serves a cycle frame at a time. -/
def Gateway.serveFrame (g : Gateway) (f : CycleFrame) (now : Nat) : Gateway :=
  { g with
    cycle := f.cycle
    firstFrame := false
    controllerMiss := 0
    servedTime := now
    timer := some (now + 5 * g.period / 4)
    demands := Vector.ofFn fun c : Slot => g.demands[c].served f.demands[c] }

/-- R6 to R8: the gateway serves a fill cycle at a time. -/
def Gateway.serveFill (g : Gateway) (now : Nat) : Gateway :=
  { g with
    cycle := g.cycle + 1
    controllerMiss := bump255 g.controllerMiss
    servedTime := now
    timer := some (now + g.period)
    demands := Vector.ofFn fun c : Slot => g.demands[c].extrapolated }

/-- R8: the Link cause of a fill cycle. -/
def Part.checkLink (s : Part) : Part :=
  if s.gateway.missLimit ≤ s.gateway.controllerMiss then s.post .link .ramp 0 else s

/-! ## The player at the serving (R177 to R183) -/

/-- R183: the step is starved: the cause is posted, and the halt reason recorded. -/
def Part.starve (s : Part) : Part :=
  let s1 := s.post .starve .hold s.player.pointer.val
  { s1 with player := { s1.player with
    haltReason := if s1.player.haltReason = .none then .starved else s1.player.haltReason } }

/-- R181: the player's step in Playing. -/
def Part.playStep (s : Part) : Part :=
  let tau := s.player.nextTau
  match s.stepStanding tau with
  | none => s.starve
  | some st =>
    let s1 := s.makeStep tau st
    let s2 := if s.player.firstStep ∧ s.player.current.recordWith then s1.tellRecorder else s1
    s2.kick

/-- R177 to R181: the player when a cycle is served. -/
def Part.playerServing (s : Part) : Part :=
  match s.player.state with
  | .suspended =>
    Part.checkAutoPoll { s with player := { s.player with autoCount := bump65535 s.player.autoCount } }
  | .waiting =>
    if s.player.current.trigger = .immediate ∧ s.prefetchComplete then s.enterPlaying.playStep else s
  | .playing => s.playStep
  | .stopped => s
  | .fetching => s
  | .approaching => s
  | .halted => s
  | .closing => s

/-! ## Requests (R44, R107, R120) -/

/-- R44: the request of a motion axis, in fine units; a channel on Stop or Track has none, and its
position stands there. -/
def Part.motionRequest (s : Part) (c : Slot) : Int :=
  let ch := s.shaper.chans[c]
  match ch.source with
  | .live => s.gateway.demands[c].last * 65536
  | .take => s.player.held[c].getD ch.p
  | .parked => ch.park
  | .stop => ch.p
  | .track => ch.p

/-- R107, R119, R120: a lens channel's record after its request is formed, and the request in fine
units. -/
def Part.lensRequest (s : Part) (l : LensIx) : LensChannel × Int :=
  let c := LensIx.slot l
  let ch := s.shaper.chans[c]
  let lc := s.lens.chans[l]
  match ch.source with
  | .live =>
    let r := lc.formLive (freshInput s.lens l s.gateway.feedback[c] s.zone.currentTip
      s.gateway.demands[c].last)
    (r.1, r.2 * 65536)
  | .take => lc.formTake (s.player.held[c].getD ch.p)
  | .parked => (lc.formParked ch.park, ch.park)
  | .stop => (lc, ch.p)
  | .track => (lc, ch.p)

/-- The requests of the cycle. -/
def Part.requests (s : Part) : Vector Int 12 :=
  Vector.ofFn fun c =>
    match lensOf c with
    | none => s.motionRequest c
    | some l => (s.lensRequest l).2

/-- The lens mapper after the requests of the cycle are formed. -/
def Part.formLenses (s : Part) : LensMapper :=
  { s.lens with chans := Vector.ofFn fun l : LensIx => (s.lensRequest l).1 }

/-! ## After the shaper's step -/

/-- R54: a divergence is posted, and recorded against the current cue. -/
def Part.diverge (s : Part) (c : Slot) : Part :=
  let s1 := s.post .divergence .hold c.val
  { s1 with player := { s1.player with
    haltReason := if s1.player.haltReason = .none then .diverged else s1.player.haltReason } }

/-- R54: the divergence check of a cycle in which the player is Playing. -/
def Part.checkDivergence (s : Part) (requests : Vector Int 12) : Part :=
  if s.player.state = .playing then
    (s.shaper.divergent requests).foldl (fun t c => t.diverge c) s
  else s

/-- R70 stage 4: the zone tests, made in Run outside Safe-Off. -/
def Part.zoneTests (s : Part) : Part :=
  if s.lane.mode = .run ∧ s.seq.state ≠ .safeOff then s.postAll s.zone.causes else s

/-- R70: the zone monitor's work of a served cycle. -/
def Part.zoneWork (s : Part) : Part :=
  let s1 := Part.zoneTests { s with zone := s.zone.update s.shaper }
  let z := s1.zone.checkRecovery
  { s1 with zone := z, shaper := { s1.shaper with sigma := z.speedScale } }

/-- R89: the end of a ramp whose step has just been made. -/
def Part.checkRampEnd (s : Part) (wasRamping : Bool) : Part :=
  if wasRamping ∧ s.seq.state = .ramping ∧ s.shaper.atRest then s.enterSettling else s

/-- R52, R178: every played channel stands on its clamped request at rest. -/
def Part.arrived (s : Part) (requests : Vector Int 12) : Bool :=
  (Mask.slots s.player.played).all fun c =>
    s.shaper.chans[c].onRequest requests[c] (fineWindow (s.window c))

/-- R178: Waiting is entered, and the prefetch filled. -/
def Part.enterWaiting (s : Part) : Part :=
  (Part.fillPrefetch { s with player := { s.player with state := .waiting } }).takeLatchedGo.kick

/-- R178, R185: the shaper's report to the player. -/
def Part.arrivalReport (s : Part) (requests : Vector Int 12) : Part :=
  match s.player.state with
  | .approaching => if s.arrived requests then s.enterWaiting else s
  | .closing => if s.arrived requests then s.endCue.kick else s
  | .stopped => s
  | .fetching => s
  | .suspended => s
  | .waiting => s
  | .playing => s
  | .halted => s

/-! ## The whole cycle -/

/-- R112, R116: the start of a served cycle in the lens mapper. -/
def Part.startLenses (s : Part) : Part :=
  let m := s.lens.install
  { s with lens := { m with target := m.target.grow } }

/-- R45, R52: the requests formed, the channels stepped and the results handed on, up to the drive
frame (R5, R10; log 6, log 7). -/
def Part.stepAndEmit (s : Part) : Part :=
  let requests := s.requests
  let s1 := { s with lens := s.formLenses }
  let s2 := { s1 with shaper := s1.stepShaper requests }
  let setpoints := s2.setpoints
  let s3 := (s2.checkDivergence requests).zoneWork
  let s4 := (s3.sampleInstant.checkRampEnd (s.seq.state = .ramping)).arrivalReport requests
  s4.emitDrive setpoints

/-- R4: a cycle frame is served, up to its drive frame. The recorder's clock starts or moves (R160, R161)
before the player makes its step (R181): no rule orders the two, and a step that starves then closes a
Recording take, not an Armed one (log 56). -/
def Part.serveFrame (s : Part) (f : CycleFrame) : Part :=
  let s1 := Part.startLenses { s with gateway := s.gateway.serveFrame f s.now }
  s1.sequencerServing.recorderServing.playerServing.stepAndEmit

/-- R6: a fill cycle is served. Link (R8) is posted after the sequencer's timers and before the recorder's
clock and the player's step (log 8), and the clock comes before the step as in `serveFrame` (log 56). -/
def Part.serveFill (s : Part) : Part :=
  let s1 := Part.startLenses { s with gateway := s.gateway.serveFill s.now }
  s1.sequencerServing.checkLink.recorderServing.playerServing.stepAndEmit

/-! ## The service lane -/

/-- R20: a malformed record is answered BadRecord. -/
def Part.serveMalformed (s : Part) (kind tag : Byte) : Part :=
  serveRequest kind tag (fun _ p => refuse p .badRecord) s

/-- R21: an unknown record is answered Unknown. -/
def Part.serveUnknown (s : Part) (kind tag : Byte) : Part :=
  serveRequest kind tag (fun _ p => refuse p .unknown) s

/-- R3: a request of a late frame is answered Late. -/
def Part.serveLate (s : Part) (kind tag : Byte) : Part :=
  serveRequest kind tag (fun _ p => refuse p .late) s

/-- R24, R32: a Restart read now is executed: it finds room in the reply queue, in Setup. -/
def Part.restarts (s : Part) : Bool :=
  decide (s.lane.queue.length < queueLimit) && decide (s.lane.mode = .setup)

/-- R32: the reset of a Restart; the lines are as last seen (log 9). -/
def Part.restartReset (s : Part) : Part := s.resetAll s.seq.eStopOpen s.seq.guardOpen

/-- R32: Restart. -/
def Part.serveRestart (s : Part) (tag : Byte) : Part :=
  if s.restarts then s.restartReset else serveRequest 0x03#8 tag (fun _ p => refuse p .wrongMode) s

/-- R22: a record of a served lane executed by its owner. The events of the ports and lines are not
records. -/
def Part.serveRecord (s : Part) (i : Instr) : Part :=
  match i with
  | .malformedRecord kind tag => s.serveMalformed kind tag
  | .unknownRecord kind tag => s.serveUnknown kind tag
  | .gatewaySet tag period missLimit => s.serveGatewaySet tag period missLimit
  | .mode tag want => s.serveMode tag want
  | .restart tag => s.serveRestart tag
  | .axisSet tag target record => s.serveAxisSet tag target record
  | .axisRead tag target => s.serveAxisRead tag target
  | .sourceLive tag mask => s.serveSourceLive tag mask
  | .geometrySet tag body => s.serveGeometrySet tag body
  | .zoneSet tag body => s.serveZoneSet tag body
  | .zoneClear tag index => s.serveZoneClear tag index
  | .liveZoneUpdate tag index box => s.serveLiveZoneUpdate tag index box
  | .zoneRead tag index => s.serveZoneRead tag index
  | .stop tag category => s.serveStop tag category
  | .rearm tag recover => s.serveRearm tag recover
  | .continueStop tag => s.serveContinueStop tag
  | .lensModeSet tag channel mode => s.serveLensModeSet tag channel mode
  | .lensPoints tag body => s.serveLensPoints tag body
  | .lensCommit tag channel count => s.serveLensCommit tag channel count
  | .lensTableRead tag body => s.serveLensTableRead tag body
  | .targetUpdate tag body => s.serveTargetUpdate tag body
  | .syncSet tag weight preset value => s.serveSyncSet tag weight preset value
  | .recordStart tag body => s.serveRecordStart tag body
  | .recordStop tag => s.serveRecordStop tag
  | .takeErase tag slot => s.serveTakeErase tag slot
  | .takeLock tag slot => s.serveTakeLock tag slot
  | .protectionFreeze tag => s.serveProtectionFreeze tag
  | .arrayClear tag => s.serveArrayClear tag
  | .directoryRead tag slot => s.serveDirectoryRead tag slot
  | .takeRead tag slot page => s.serveTakeRead tag slot page
  | .takeImport tag body => s.serveTakeImport tag body
  | .pageWrite tag slot page => s.servePageWrite tag slot page
  | .importClose tag slot => s.serveImportClose tag slot
  | .cueWrite tag body => s.serveCueWrite tag body
  | .cueRead tag index => s.serveCueRead tag index
  | .cuePoll tag => s.serveCuePoll tag
  | .playerStart tag interval => s.servePlayerStart tag interval
  | .playerStop tag => s.servePlayerStop tag
  | .go tag => s.serveGo tag
  | .resume tag => s.serveResume tag
  | .abandon tag => s.serveAbandon tag
  | .cycleFrame _ _ => s
  | .fillCycle => s
  | .driveFrameReturn _ => s
  | .reset _ _ => s
  | .eStopOpen => s
  | .eStopClose => s
  | .guardOpen => s
  | .guardClose => s
  | .stillTimeout => s
  | .brakeTimer => s
  | .brakeTimeout => s
  | .releaseTimer => s
  | .armingTimeout => s
  | .syncEdge _ => s
  | .lossTime => s
  | .edgeSynthesis => s
  | .phasePointExpiry => s
  | .pageReadComplete => s
  | .pageProgramComplete => s
  | .bayEraseComplete => s
  | .scanReadComplete => s
  | .autoPoll => s

/-- The command is a Restart. -/
def Instr.isRestart : Instr → Bool
  | .restart _ => true
  | _ => false

/-- The command is a malformed record. -/
def Instr.isMalformed : Instr → Bool
  | .malformedRecord _ _ => true
  | _ => false

/-- R22, R32: the records of a served lane, in order; after a Restart that is executed the rest is
not read. -/
def Part.readLane : List LaneRecord → Part → Part
  | [], s => s
  | r :: rest, s =>
    if Instr.isRestart r.command ∧ s.restarts then s.restartReset
    else Part.readLane rest (s.serveRecord r.command)

/-- R3: the records of a late lane: each answered Late, a malformed one BadRecord. -/
def Part.readLateLane : List LaneRecord → Part → Part
  | [], s => s
  | r :: rest, s =>
    Part.readLateLane rest
      (if Instr.isMalformed r.command then s.serveMalformed r.kind r.tag else s.serveLate r.kind r.tag)

/-! ## A cycle frame (R1 to R3) -/

/-- R2: the frame is served: the first after a reset, or ahead of N by 1 to 32,767. -/
def Gateway.accepts (g : Gateway) (cycle : CycleNo) : Bool :=
  let d := (cycle - g.cycle).toNat
  g.firstFrame || (decide (1 ≤ d) && decide (d ≤ 32767))

/-- R1: a frame discarded as bad. -/
def Part.discardFrame (s : Part) : Part :=
  { s with gateway := { s.gateway with badCount := bump255 s.gateway.badCount } }

/-- R3: a late frame. -/
def Part.lateFrame (s : Part) (f : CycleFrame) : Part :=
  Part.readLateLane (laneRecords f.lane)
    { s with gateway := { s.gateway with lateCount := bump255 s.gateway.lateCount } }

/-- R1 to R5: a cycle frame arrives at port A. -/
def Part.frameArrived (s : Part) (frame : List Byte) : Part :=
  match CycleFrame.ofBytes frame with
  | none => s.discardFrame
  | some f =>
    if s.gateway.accepts f.cycle then Part.readLane (laneRecords f.lane) (s.serveFrame f) else s.lateFrame f

end Sys2Proof.Machine
end

