-- ==== Sys2Proof/Machine/Events.lean ====
section
/-! DEFINITION. The commands that are not lane requests with an owner: the frames at the ports, the
records that no owner executes, the resets, the lines, the timers, the sync line and the array's
completions. -/

namespace Sys2Proof.Machine

/-! ## Frames (R1 to R15) -/

/-- CYCLE_FRAME: a cycle frame arrives at port A at a time. -/
def execCycleFrame (time : Nat) (frame : List Byte) (s : State) : Host.Outcome State Fault Refusal :=
  .next { s with part := (s.part.advanceTo time).frameArrived frame }

/-- R6: the cycle timer expires; without a running timer nothing is due (log 3). -/
def Part.timerExpired (s : Part) : Part :=
  match s.gateway.timer with
  | none => s
  | some t => (s.advanceTo t).serveFill

/-- FILL_CYCLE. -/
def execFillCycle (s : State) : Host.Outcome State Fault Refusal :=
  .next { s with part := s.part.timerExpired }

/-- DRIVE_FRAME_RETURN: a drive frame arrives back at port B. -/
def execDriveFrameReturn (frame : List Byte) (s : State) : Host.Outcome State Fault Refusal :=
  .next { s with part := s.part.driveReturned frame }

/-! ## Records without an owner (R20, R21) -/

/-- MALFORMED_RECORD. -/
def execMalformedRecord (kind tag : Byte) (s : State) : Host.Outcome State Fault Refusal :=
  .next { s with part := s.part.serveMalformed kind tag }

/-- UNKNOWN_RECORD. -/
def execUnknownRecord (kind tag : Byte) (s : State) : Host.Outcome State Fault Refusal :=
  .next { s with part := s.part.serveUnknown kind tag }

/-! ## Resets (R18, R32, R33, R55, R79, R105, R121, R132, R157, R171, R190) -/

/-- RESTART. -/
def execRestart (tag : Byte) (s : State) : Host.Outcome State Fault Refusal :=
  .next { s with part := s.part.serveRestart tag }

/-- RESET: the Reset line or power-up, with the lines as they stand when it ends. -/
def execReset (eStopOpen guardOpen : Bool) (s : State) : Host.Outcome State Fault Refusal :=
  .next { s with part := s.part.resetAll eStopOpen guardOpen }

/-! ## Lines (R84, R85) -/

/-- R84: the E-stop line opens; a line already open does not change (log 3). -/
def Part.eStopOpened (s : Part) : Part := if s.seq.eStopOpen then s else s.openEStop

/-- E_STOP_OPEN. -/
def execEStopOpen (s : State) : Host.Outcome State Fault Refusal :=
  .next { s with part := s.part.eStopOpened }

/-- E_STOP_CLOSE. -/
def execEStopClose (s : State) : Host.Outcome State Fault Refusal :=
  .next { s with part := { s.part with seq := { s.part.seq with eStopOpen := false } } }

/-- R85: the Guard line opens; a line already open does not change (log 3). -/
def Part.guardOpened (s : Part) : Part := if s.seq.guardOpen then s else s.openGuard

/-- GUARD_OPEN. -/
def execGuardOpen (s : State) : Host.Outcome State Fault Refusal :=
  .next { s with part := s.part.guardOpened }

/-- GUARD_CLOSE. -/
def execGuardClose (s : State) : Host.Outcome State Fault Refusal :=
  .next { s with part := { s.part with seq := { s.part.seq with guardOpen := false } } }

/-! ## The sequencer's timers (R93, R95, R96, R101; log 5) -/

/-- STILL_TIMEOUT. -/
def execStillTimeout (s : State) : Host.Outcome State Fault Refusal :=
  .next { s with part := s.part.checkStillTimeout }

/-- BRAKE_TIMER. -/
def execBrakeTimer (s : State) : Host.Outcome State Fault Refusal :=
  .next { s with part := s.part.checkBrakeTimer }

/-- BRAKE_TIMEOUT. -/
def execBrakeTimeout (s : State) : Host.Outcome State Fault Refusal :=
  .next { s with part := s.part.checkBrakeTimeout }

/-- RELEASE_TIMER. -/
def execReleaseTimer (s : State) : Host.Outcome State Fault Refusal :=
  .next { s with part := s.part.checkReleaseTimer }

/-- ARMING_TIMEOUT. -/
def execArmingTimeout (s : State) : Host.Outcome State Fault Refusal :=
  .next { s with part := s.part.checkArmingTimeout }

/-! ## The camera sync line (R122 to R130) -/

/-- SYNC_EDGE: a rising edge of the camera sync line at a time. -/
def execSyncEdge (time : Nat) (s : State) : Host.Outcome State Fault Refusal :=
  let p := s.part.advanceTo time
  .next { s with part := p.candidate p.now }

/-- R127: the loss time is reached in Locked. -/
def Part.lossReached (s : Part) : Part :=
  match s.sync.state, s.sync.lossTime with
  | .locked, some t => (s.advanceTo t).loseFrame
  | _, _ => s

/-- LOSS_TIME. -/
def execLossTime (s : State) : Host.Outcome State Fault Refusal :=
  .next { s with part := s.part.lossReached }

/-- R128: the next synthesized time is reached in Freewheel. -/
def Part.synthesisReached (s : Part) : Part :=
  match s.sync.state, s.sync.nextSynth with
  | .freewheel, some t => (s.advanceTo t).synthesizeEdge t
  | _, _ => s

/-- EDGE_SYNTHESIS. -/
def execEdgeSynthesis (s : State) : Host.Outcome State Fault Refusal :=
  .next { s with part := s.part.synthesisReached }

/-- R130: the phase point is reached. -/
def Part.phasePointReached (s : Part) : Part :=
  match s.sync.phasePoint with
  | none => s
  | some t => (s.advanceTo t).expirePhasePoint

/-- PHASE_POINT_EXPIRY. -/
def execPhasePointExpiry (s : State) : Host.Outcome State Fault Refusal :=
  .next { s with part := s.part.phasePointReached }

/-! ## The take array (R139 to R144) -/

/-- No operation is in progress. -/
def Part.clearOperation (s : Part) : Part := { s with array := { s.array with operation := none } }

/-- R139: the page read in progress completes, and the controller chooses again. -/
def Part.readCompleted (s : Part) : Part :=
  match s.array.operation with
  | some (.job j withdrawn) =>
    if j.isRead then (s.clearOperation.finishRead j withdrawn).choose else s
  | some (.erase _) => s
  | none => s

/-- PAGE_READ_COMPLETE. -/
def execPageReadComplete (s : State) : Host.Outcome State Fault Refusal :=
  .next { s with part := s.part.readCompleted }

/-- R139: the requester of a program is told that it has completed. -/
def Part.finishProgram (s : Part) (j : Job) : Part :=
  match j with
  | .recorderHeader _ _ => s.finishClosing
  | .recorderData slot _ buffer _ => (s.recorderPageDone slot buffer).endStall.finishClosing
  | .writeHeader _ _ => s
  | .writeData ticket slot _ entries =>
    Part.answer { s with array := s.array.pageWritten slot entries } ticket .done []
  | .lock ticket slot _ => Part.answer { s with array := s.array.lockDone slot } ticket .done []
  | .retire slot bay => { s with array := s.array.retired slot bay }
  | .clearRetire slot _ => { s with array := s.array.clearRetired slot }
  | .playerRead _ _ => s
  | .takeRead _ _ _ => s

/-- R139: the program in progress completes, and the controller chooses again. -/
def Part.programCompleted (s : Part) : Part :=
  match s.array.operation with
  | some (.job j _) =>
    if j.isRead then s
    else
      let s1 := { s with array := { s.array with memory := s.array.programmed j } }
      (s1.finishProgram j).clearOperation.choose
  | some (.erase _) => s
  | none => s

/-- PAGE_PROGRAM_COMPLETE. -/
def execPageProgramComplete (s : State) : Host.Outcome State Fault Refusal :=
  .next { s with part := s.part.programCompleted }

/-- R141: a bay erased with its marker joins the erased queue. -/
def TakeArray.bayErased (t : TakeArray) (bay : Bay) : TakeArray :=
  { t with memory := t.memory.eraseBay bay, erased := t.erased ++ [bay], operation := none }

/-- R141, R166: the erase in progress completes; a stalled recorder that waits for a bay claims it;
the controller chooses again. -/
def Part.eraseCompleted (s : Part) : Part :=
  match s.array.operation with
  | some (.erase bay) => (Part.bayForStall { s with array := s.array.bayErased bay }).choose
  | some (.job _ _) => s
  | none => s

/-- BAY_ERASE_COMPLETE. -/
def execBayEraseComplete (s : State) : Host.Outcome State Fault Refusal :=
  .next { s with part := s.part.eraseCompleted }

/-- R142 to R144: the read of the scan in progress completes. -/
def Part.scanReadCompleted (s : Part) : Part :=
  match s.array.scan with
  | none => s
  | some sc => Part.choose { s with array := s.array.scanRead sc }

/-- SCAN_READ_COMPLETE. -/
def execScanReadComplete (s : State) : Host.Outcome State Fault Refusal :=
  .next { s with part := s.part.scanReadCompleted }

/-! ## The player's timer (R177; log 5) -/

/-- AUTO_POLL. -/
def execAutoPoll (s : State) : Host.Outcome State Fault Refusal :=
  .next { s with part := s.part.checkAutoPoll }

end Sys2Proof.Machine
end

