-- ==== Sys2Proof/Machine/Dispatch.lean ====
section
/-! DEFINITION. The dispatch of commands: one arm per constructor of `Instr`. -/

namespace Sys2Proof.Machine

def exec (i : Instr) (s : State) : Host.Outcome State Fault Refusal :=
  match i with
  | .cycleFrame time frame => Sys2Proof.Machine.execCycleFrame time frame s
  | .fillCycle => Sys2Proof.Machine.execFillCycle s
  | .driveFrameReturn frame => Sys2Proof.Machine.execDriveFrameReturn frame s
  | .malformedRecord kind tag => Sys2Proof.Machine.execMalformedRecord kind tag s
  | .unknownRecord kind tag => Sys2Proof.Machine.execUnknownRecord kind tag s
  | .gatewaySet tag period missLimit => Sys2Proof.Machine.execGatewaySet tag period missLimit s
  | .mode tag want => Sys2Proof.Machine.execMode tag want s
  | .restart tag => Sys2Proof.Machine.execRestart tag s
  | .reset eStopOpen guardOpen => Sys2Proof.Machine.execReset eStopOpen guardOpen s
  | .axisSet tag target record => Sys2Proof.Machine.execAxisSet tag target record s
  | .axisRead tag target => Sys2Proof.Machine.execAxisRead tag target s
  | .sourceLive tag mask => Sys2Proof.Machine.execSourceLive tag mask s
  | .geometrySet tag body => Sys2Proof.Machine.execGeometrySet tag body s
  | .zoneSet tag body => Sys2Proof.Machine.execZoneSet tag body s
  | .zoneClear tag index => Sys2Proof.Machine.execZoneClear tag index s
  | .liveZoneUpdate tag index box => Sys2Proof.Machine.execLiveZoneUpdate tag index box s
  | .zoneRead tag index => Sys2Proof.Machine.execZoneRead tag index s
  | .eStopOpen => Sys2Proof.Machine.execEStopOpen s
  | .eStopClose => Sys2Proof.Machine.execEStopClose s
  | .guardOpen => Sys2Proof.Machine.execGuardOpen s
  | .guardClose => Sys2Proof.Machine.execGuardClose s
  | .stop tag category => Sys2Proof.Machine.execStop tag category s
  | .stillTimeout => Sys2Proof.Machine.execStillTimeout s
  | .brakeTimer => Sys2Proof.Machine.execBrakeTimer s
  | .brakeTimeout => Sys2Proof.Machine.execBrakeTimeout s
  | .rearm tag recover => Sys2Proof.Machine.execRearm tag recover s
  | .releaseTimer => Sys2Proof.Machine.execReleaseTimer s
  | .armingTimeout => Sys2Proof.Machine.execArmingTimeout s
  | .continueStop tag => Sys2Proof.Machine.execContinueStop tag s
  | .lensModeSet tag channel mode => Sys2Proof.Machine.execLensModeSet tag channel mode s
  | .lensPoints tag body => Sys2Proof.Machine.execLensPoints tag body s
  | .lensCommit tag channel count => Sys2Proof.Machine.execLensCommit tag channel count s
  | .lensTableRead tag body => Sys2Proof.Machine.execLensTableRead tag body s
  | .targetUpdate tag body => Sys2Proof.Machine.execTargetUpdate tag body s
  | .syncEdge time => Sys2Proof.Machine.execSyncEdge time s
  | .lossTime => Sys2Proof.Machine.execLossTime s
  | .edgeSynthesis => Sys2Proof.Machine.execEdgeSynthesis s
  | .phasePointExpiry => Sys2Proof.Machine.execPhasePointExpiry s
  | .syncSet tag weight preset value => Sys2Proof.Machine.execSyncSet tag weight preset value s
  | .pageReadComplete => Sys2Proof.Machine.execPageReadComplete s
  | .pageProgramComplete => Sys2Proof.Machine.execPageProgramComplete s
  | .bayEraseComplete => Sys2Proof.Machine.execBayEraseComplete s
  | .scanReadComplete => Sys2Proof.Machine.execScanReadComplete s
  | .directoryRead tag slot => Sys2Proof.Machine.execDirectoryRead tag slot s
  | .takeErase tag slot => Sys2Proof.Machine.execTakeErase tag slot s
  | .takeLock tag slot => Sys2Proof.Machine.execTakeLock tag slot s
  | .protectionFreeze tag => Sys2Proof.Machine.execProtectionFreeze tag s
  | .arrayClear tag => Sys2Proof.Machine.execArrayClear tag s
  | .takeRead tag slot page => Sys2Proof.Machine.execTakeRead tag slot page s
  | .takeImport tag body => Sys2Proof.Machine.execTakeImport tag body s
  | .pageWrite tag slot page => Sys2Proof.Machine.execPageWrite tag slot page s
  | .importClose tag slot => Sys2Proof.Machine.execImportClose tag slot s
  | .recordStart tag body => Sys2Proof.Machine.execRecordStart tag body s
  | .recordStop tag => Sys2Proof.Machine.execRecordStop tag s
  | .cueWrite tag body => Sys2Proof.Machine.execCueWrite tag body s
  | .cueRead tag index => Sys2Proof.Machine.execCueRead tag index s
  | .cuePoll tag => Sys2Proof.Machine.execCuePoll tag s
  | .playerStart tag interval => Sys2Proof.Machine.execPlayerStart tag interval s
  | .autoPoll => Sys2Proof.Machine.execAutoPoll s
  | .go tag => Sys2Proof.Machine.execGo tag s
  | .resume tag => Sys2Proof.Machine.execResume tag s
  | .abandon tag => Sys2Proof.Machine.execAbandon tag s
  | .playerStop tag => Sys2Proof.Machine.execPlayerStop tag s

end Sys2Proof.Machine
end

