-- ==== Sys2Proof/WellFormed.lean ====
section
/-! DEFINITION. Which commands the ports can deliver: every field fits its place in the record of
section 11.3, and a record that no owner executes is not one that an owner would. The owners judge
the stated ranges; these are only the widths. -/

namespace Sys2Proof

/-- A number fits an unsigned field of n bytes. -/
def fits (n v : Nat) : Bool := decide (v < 2 ^ (8 * n))

/-- A number fits a signed field of 4 bytes. -/
def fitsInt (v : Int) : Bool := decide (-2147483648 ≤ v) && decide (v ≤ 2147483647)

/-- The fields of an axis record fit. -/
def AxisFields.wf (f : AxisFields) : Bool :=
  fits 1 f.present && fits 1 f.kind && fits 1 f.brakePresent && fits 1 f.confirm &&
  fitsInt f.pmin && fitsInt f.pmax && fits 4 f.vmax && fits 4 f.amax && fits 4 f.astop &&
  fits 4 f.following && fits 1 f.followCount && fits 2 f.still && fits 4 f.divergence

/-- The fields of a stop timing record fit. -/
def TimingFields.wf (f : TimingFields) : Bool :=
  fits 1 f.stillDwell && fits 1 f.stillMask && fits 1 f.brakeMask && fits 2 f.stillTimeout &&
  fits 2 f.brakeTimer && fits 2 f.brakeTimeout && fits 2 f.armingTimeout

/-- The record of an Axis Set is of the kind its target asks for. -/
def AxisSetRecord.wf (target : Nat) : AxisSetRecord → Bool
  | .timing f => decide (target = 12) && f.wf
  | .channel f => decide (target ≠ 12) && fits 1 target && f.wf

/-- The coordinates of a point fit. -/
def Point.wf (p : Point) : Bool := fitsInt p.x && fitsInt p.y && fitsInt p.z

/-- The coordinates of a box fit. -/
def Box.wf (b : Box) : Bool :=
  fitsInt b.xmin && fitsInt b.xmax && fitsInt b.ymin && fitsInt b.ymax && fitsInt b.zmin &&
  fitsInt b.zmax

/-- The fields of Geometry Set fit. -/
def GeometryFields.wf (g : GeometryFields) : Bool :=
  fits 4 g.lb && fitsInt g.x0 && fitsInt g.y0 && fitsInt g.z0 && fitsInt g.swing && fitsInt g.lift

/-- The fields of Zone Set fit. -/
def ZoneFields.wf (f : ZoneFields) : Bool :=
  fits 1 f.index && fits 1 f.state && fits 1 f.kind && fits 1 f.response && f.box.wf &&
  fits 4 f.margin && fits 2 f.scale && fits 2 f.refresh && fits 2 f.growth

/-- The fields of Lens Points fit, and the record is at most 480 bytes long. -/
def LensPointsFields.wf (f : LensPointsFields) : Bool :=
  fits 1 f.channel && fits 1 f.start && decide (f.extra < 8) &&
  decide (8 + 8 * f.pairs.length + f.extra ≤ 480) &&
  f.pairs.all fun p => fits 4 p.phys && fitsInt p.count

/-- The fields of Lens Table Read fit. -/
def TableReadFields.wf (f : TableReadFields) : Bool :=
  fits 1 f.channel && fits 1 f.choice && fits 1 f.start && fits 1 f.count

/-- The fields of Target Update fit. -/
def TargetFields.wf (f : TargetFields) : Bool := f.point.wf && fits 2 f.refresh && fitsInt f.offset

/-- The fields of Record Start fit. -/
def RecordStartFields.wf (f : RecordStartFields) : Bool :=
  fits 1 f.slot && fits 1 f.divisor && fits 1 f.trigger

/-- The fields of Take Import fit. -/
def ImportFields.wf (f : ImportFields) : Bool :=
  fits 1 f.slot && fits 1 f.divisor && fits 1 f.modes[0] && fits 1 f.modes[1] && fits 1 f.modes[2] &&
  fits 1 f.modes[3]

/-- The fields of Cue Write fit. -/
def CueFields.wf (f : CueFields) : Bool :=
  fits 1 f.index && fits 1 f.slot && fits 1 f.trigger && fits 4 f.start && fits 4 f.endIx &&
  fits 2 f.speed

/-- A command that the ports, the lines or the blocks of the part can deliver. -/
def Instr.wf : Instr → Bool
  | .cycleFrame _ _ => true
  | .fillCycle => true
  | .driveFrameReturn _ => true
  | .malformedRecord _ _ => true
  | .unknownRecord kind _ => (Machine.minLength kind).isNone
  | .gatewaySet _ period missLimit => fits 2 period && fits 1 missLimit
  | .mode _ want => fits 1 want
  | .restart _ => true
  | .reset _ _ => true
  | .axisSet _ target record => record.wf target
  | .axisRead _ target => fits 1 target
  | .sourceLive _ _ => true
  | .geometrySet _ body => body.wf
  | .zoneSet _ body => body.wf
  | .zoneClear _ index => fits 1 index
  | .liveZoneUpdate _ index box => fits 1 index && box.wf
  | .zoneRead _ index => fits 1 index
  | .eStopOpen => true
  | .eStopClose => true
  | .guardOpen => true
  | .guardClose => true
  | .stop _ category => fits 1 category
  | .stillTimeout => true
  | .brakeTimer => true
  | .brakeTimeout => true
  | .rearm _ recover => fits 1 recover
  | .releaseTimer => true
  | .armingTimeout => true
  | .continueStop _ => true
  | .lensModeSet _ channel m => fits 1 channel && fits 1 m
  | .lensPoints _ body => body.wf
  | .lensCommit _ channel count => fits 1 channel && fits 1 count
  | .lensTableRead _ body => body.wf
  | .targetUpdate _ body => body.wf
  | .syncEdge _ => true
  | .lossTime => true
  | .edgeSynthesis => true
  | .phasePointExpiry => true
  | .syncSet _ weight preset value => fits 2 weight && fits 1 preset && fits 4 value
  | .pageReadComplete => true
  | .pageProgramComplete => true
  | .bayEraseComplete => true
  | .scanReadComplete => true
  | .directoryRead _ slot => fits 1 slot
  | .takeErase _ slot => fits 1 slot
  | .takeLock _ slot => fits 1 slot
  | .protectionFreeze _ => true
  | .arrayClear _ => true
  | .takeRead _ slot page => fits 1 slot && fits 4 page
  | .takeImport _ body => body.wf
  | .pageWrite _ slot page => fits 1 slot && decide (254 ≤ page.length) && decide (page.length ≤ 472)
  | .importClose _ slot => fits 1 slot
  | .recordStart _ body => body.wf
  | .recordStop _ => true
  | .cueWrite _ body => body.wf
  | .cueRead _ index => fits 1 index
  | .cuePoll _ => true
  | .playerStart _ interval => fits 2 interval
  | .autoPoll => true
  | .go _ => true
  | .resume _ => true
  | .abandon _ => true
  | .playerStop _ => true

end Sys2Proof
end

