-- ==== Sys2Proof/Machine/Encode.lean ====
section
/-! DEFINITION. The records of the service lane written from the table of section 11.3: the kind, the tag
and the body of every request, as a rig controller would send it. -/

namespace Sys2Proof.Machine

/-- The kind byte of a request (section 11.3); none for a command that is not a request. -/
def kindOf : Instr → Option Byte
  | .gatewaySet _ _ _ => some 0x01#8
  | .mode _ _ => some 0x02#8
  | .restart _ => some 0x03#8
  | .axisSet _ _ _ => some 0x10#8
  | .axisRead _ _ => some 0x11#8
  | .sourceLive _ _ => some 0x12#8
  | .geometrySet _ _ => some 0x20#8
  | .zoneSet _ _ => some 0x21#8
  | .zoneClear _ _ => some 0x22#8
  | .liveZoneUpdate _ _ _ => some 0x23#8
  | .zoneRead _ _ => some 0x24#8
  | .stop _ _ => some 0x30#8
  | .rearm _ _ => some 0x31#8
  | .continueStop _ => some 0x32#8
  | .lensModeSet _ _ _ => some 0x40#8
  | .lensPoints _ _ => some 0x41#8
  | .lensCommit _ _ _ => some 0x42#8
  | .lensTableRead _ _ => some 0x43#8
  | .targetUpdate _ _ => some 0x44#8
  | .syncSet _ _ _ _ => some 0x50#8
  | .recordStart _ _ => some 0x60#8
  | .recordStop _ => some 0x61#8
  | .takeErase _ _ => some 0x62#8
  | .takeLock _ _ => some 0x63#8
  | .protectionFreeze _ => some 0x64#8
  | .arrayClear _ => some 0x65#8
  | .directoryRead _ _ => some 0x66#8
  | .takeRead _ _ _ => some 0x67#8
  | .takeImport _ _ => some 0x68#8
  | .pageWrite _ _ _ => some 0x69#8
  | .importClose _ _ => some 0x6A#8
  | .cueWrite _ _ => some 0x70#8
  | .cueRead _ _ => some 0x71#8
  | .cuePoll _ => some 0x72#8
  | .playerStart _ _ => some 0x73#8
  | .playerStop _ => some 0x74#8
  | .go _ => some 0x75#8
  | .resume _ => some 0x76#8
  | .abandon _ => some 0x77#8
  | .cycleFrame _ _ => none
  | .fillCycle => none
  | .driveFrameReturn _ => none
  | .malformedRecord _ _ => none
  | .unknownRecord _ _ => none
  | .reset _ _ => none
  | .eStopOpen => none
  | .eStopClose => none
  | .guardOpen => none
  | .guardClose => none
  | .stillTimeout => none
  | .brakeTimer => none
  | .brakeTimeout => none
  | .releaseTimer => none
  | .armingTimeout => none
  | .syncEdge _ => none
  | .lossTime => none
  | .edgeSynthesis => none
  | .phasePointExpiry => none
  | .pageReadComplete => none
  | .pageProgramComplete => none
  | .bayEraseComplete => none
  | .scanReadComplete => none
  | .autoPoll => none

/-- The tag of a request; 0 for a command that is not a request. -/
def tagOf : Instr → Byte
  | .gatewaySet tag _ _ => tag
  | .mode tag _ => tag
  | .restart tag => tag
  | .axisSet tag _ _ => tag
  | .axisRead tag _ => tag
  | .sourceLive tag _ => tag
  | .geometrySet tag _ => tag
  | .zoneSet tag _ => tag
  | .zoneClear tag _ => tag
  | .liveZoneUpdate tag _ _ => tag
  | .zoneRead tag _ => tag
  | .stop tag _ => tag
  | .rearm tag _ => tag
  | .continueStop tag => tag
  | .lensModeSet tag _ _ => tag
  | .lensPoints tag _ => tag
  | .lensCommit tag _ _ => tag
  | .lensTableRead tag _ => tag
  | .targetUpdate tag _ => tag
  | .syncSet tag _ _ _ => tag
  | .recordStart tag _ => tag
  | .recordStop tag => tag
  | .takeErase tag _ => tag
  | .takeLock tag _ => tag
  | .protectionFreeze tag => tag
  | .arrayClear tag => tag
  | .directoryRead tag _ => tag
  | .takeRead tag _ _ => tag
  | .takeImport tag _ => tag
  | .pageWrite tag _ _ => tag
  | .importClose tag _ => tag
  | .cueWrite tag _ => tag
  | .cueRead tag _ => tag
  | .cuePoll tag => tag
  | .playerStart tag _ => tag
  | .playerStop tag => tag
  | .go tag => tag
  | .resume tag => tag
  | .abandon tag => tag
  | .malformedRecord _ tag => tag
  | .unknownRecord _ tag => tag
  | .cycleFrame _ _ => 0
  | .fillCycle => 0
  | .driveFrameReturn _ => 0
  | .reset _ _ => 0
  | .eStopOpen => 0
  | .eStopClose => 0
  | .guardOpen => 0
  | .guardClose => 0
  | .stillTimeout => 0
  | .brakeTimer => 0
  | .brakeTimeout => 0
  | .releaseTimer => 0
  | .armingTimeout => 0
  | .syncEdge _ => 0
  | .lossTime => 0
  | .edgeSynthesis => 0
  | .phasePointExpiry => 0
  | .pageReadComplete => 0
  | .pageProgramComplete => 0
  | .bayEraseComplete => 0
  | .scanReadComplete => 0
  | .autoPoll => 0

/-- The 36 bytes of an Axis Set record. -/
def axisRecordBytes : AxisSetRecord → List Byte
  | .channel f =>
    [byteOf f.present, byteOf f.kind, byteOf f.brakePresent, byteOf f.confirm] ++
    leBytesInt 4 f.pmin ++ leBytesInt 4 f.pmax ++ leBytes 4 f.vmax ++ leBytes 4 f.amax ++
    leBytes 4 f.astop ++ leBytes 4 f.following ++ [byteOf f.followCount] ++ spare 1 ++
    leBytes 2 f.still ++ leBytes 4 f.divergence
  | .timing f =>
    [byteOf f.stillDwell, byteOf f.stillMask, byteOf f.brakeMask] ++ spare 1 ++
    leBytes 2 f.stillTimeout ++ leBytes 2 f.brakeTimer ++ leBytes 2 f.brakeTimeout ++
    leBytes 2 f.armingTimeout ++ spare 24

/-- The body of a Zone Set. -/
def zoneFieldsBytes (f : ZoneFields) : List Byte :=
  [byteOf f.index, byteOf f.state, byteOf f.kind, byteOf f.response] ++ boxBytes f.box ++
  leBytes 4 f.margin ++ leBytes 2 f.scale ++ leBytes 2 f.refresh ++ leBytes 2 f.growth ++ spare 2

/-- The body of a Cue Write. -/
def cueFieldsBytes (f : CueFields) : List Byte :=
  [byteOf f.index, byteOf (bitsOf [f.give, f.lock, f.recordWith, f.takeEnd]), byteOf f.slot,
   byteOf f.trigger] ++
  leBytes 4 f.start ++ leBytes 4 f.endIx ++ leBytes 2 f.speed ++ leBytes 2 f.mask.toNat

/-- The body of a request (section 11.3); empty for the other commands. -/
def bodyOf : Instr → List Byte
  | .gatewaySet _ period missLimit => leBytes 2 period ++ [byteOf missLimit]
  | .mode _ want => [byteOf want]
  | .axisSet _ target record => [byteOf target] ++ spare 3 ++ axisRecordBytes record
  | .axisRead _ target => [byteOf target]
  | .sourceLive _ mask => leBytes 2 mask.toNat
  | .geometrySet _ g =>
    leBytes 4 g.lb ++ leBytesInt 4 g.x0 ++ leBytesInt 4 g.y0 ++ leBytesInt 4 g.z0 ++
    leBytesInt 4 g.swing ++ leBytesInt 4 g.lift
  | .zoneSet _ f => zoneFieldsBytes f
  | .zoneClear _ index => [byteOf index]
  | .liveZoneUpdate _ index box => [byteOf index] ++ spare 3 ++ boxBytes box
  | .zoneRead _ index => [byteOf index]
  | .stop _ category => [byteOf category]
  | .rearm _ recover => [byteOf recover]
  | .lensModeSet _ channel mode => [byteOf channel, byteOf mode]
  | .lensPoints _ f =>
    [byteOf f.channel, byteOf f.start] ++ spare 2 ++
    f.pairs.flatMap (fun p => leBytes 4 p.phys ++ leBytesInt 4 p.count) ++ spare f.extra
  | .lensCommit _ channel count => [byteOf channel, byteOf count]
  | .lensTableRead _ f => [byteOf f.channel, byteOf f.choice, byteOf f.start, byteOf f.count]
  | .targetUpdate _ f => pointBytes f.point ++ leBytes 2 f.refresh ++ spare 2 ++ leBytesInt 4 f.offset
  | .syncSet _ weight preset value => leBytes 2 weight ++ [byteOf preset] ++ spare 1 ++ leBytes 4 value
  | .recordStart _ f =>
    [byteOf f.slot, byteOf f.divisor, byteOf f.trigger] ++ spare 1 ++ leBytes 2 f.mask.toNat
  | .takeErase _ slot => [byteOf slot]
  | .takeLock _ slot => [byteOf slot]
  | .directoryRead _ slot => [byteOf slot]
  | .takeRead _ slot page => [byteOf slot] ++ spare 3 ++ leBytes 4 page
  | .takeImport _ f =>
    [byteOf f.slot, byteOf f.divisor] ++ leBytes 2 f.mask.toNat ++ f.modes.toList.map byteOf
  | .pageWrite _ slot page => [byteOf slot] ++ spare 3 ++ page
  | .importClose _ slot => [byteOf slot]
  | .cueWrite _ f => cueFieldsBytes f
  | .cueRead _ index => [byteOf index]
  | .playerStart _ interval => leBytes 2 interval
  | .restart _ => []
  | .continueStop _ => []
  | .recordStop _ => []
  | .protectionFreeze _ => []
  | .arrayClear _ => []
  | .cuePoll _ => []
  | .playerStop _ => []
  | .go _ => []
  | .resume _ => []
  | .abandon _ => []
  | .malformedRecord _ _ => []
  | .unknownRecord _ _ => []
  | .cycleFrame _ _ => []
  | .fillCycle => []
  | .driveFrameReturn _ => []
  | .reset _ _ => []
  | .eStopOpen => []
  | .eStopClose => []
  | .guardOpen => []
  | .guardClose => []
  | .stillTimeout => []
  | .brakeTimer => []
  | .brakeTimeout => []
  | .releaseTimer => []
  | .armingTimeout => []
  | .syncEdge _ => []
  | .lossTime => []
  | .edgeSynthesis => []
  | .phasePointExpiry => []
  | .pageReadComplete => []
  | .pageProgramComplete => []
  | .bayEraseComplete => []
  | .scanReadComplete => []
  | .autoPoll => []

/-- A record: its header and its body (section 11.3). -/
def recordBytes (kind tag : Byte) (body : List Byte) : List Byte :=
  [kind, tag] ++ leBytes 2 (4 + body.length) ++ body

/-- The record of a request, and nothing for another command. -/
def encodeRecord (i : Instr) : List Byte :=
  match kindOf i with
  | some k => recordBytes k (tagOf i) (bodyOf i)
  | none => []

end Sys2Proof.Machine
end

