-- ==== Sys2Proof/Safety.lean ====
section
/-! DEFINITION. What counts as a safe state of the part, in the terms the statements use: the law of the
stop chain output (R82), what may go on outside Running (R87), the window condition (R51), the ranges
of the counters and of the speed scale, the frames a served cycle leaves, where a request for the
array stands, what a reset may change of the array's bytes, and the shape of an answered request. -/

namespace Sys2Proof.Machine

/-! ## The stop chain output -/

/-- R82: the law of the stop chain output, with the facts it rests on: the output is closed exactly
outside Safe-Off, where the E-stop line is closed and the part mode is Run. -/
structure Part.ChainLaw (s : Part) : Prop where
  closed_iff : s.seq.chainClosed = true ↔ s.seq.state ≠ .safeOff
  line_closed : s.seq.state ≠ .safeOff → s.seq.eStopOpen = false
  in_run : s.seq.state ≠ .safeOff → s.lane.mode = .run

/-- R78: in Safe-Off the recovery flag is clear. -/
def Part.RecoveryLaw (s : Part) : Prop := s.seq.state = .safeOff → s.zone.recovery = false

/-! ## Outside Running -/

/-- The player states in which no cue is being fetched, approached or played. -/
def PlayerState.idle : PlayerState → Bool
  | .stopped => true | .suspended => true | .halted => true
  | .fetching => false | .approaching => false | .waiting => false | .playing => false
  | .closing => false

/-- The recorder states in which no take is being opened or written. -/
def RecorderState.quiet : RecorderState → Bool
  | .idle => true | .closing => true | .armed => false | .recording => false | .stalled => false

/-- R87: while the stop state is not Running, the player plays nothing and the recorder records
nothing. -/
def Part.PlayLaw (s : Part) : Prop :=
  s.seq.state ≠ .running → s.player.state.idle = true ∧ s.recorder.state.quiet = true

/-! ## The window -/

/-- R51: the shaped position and the stopping extent at an acceleration lie in a window, in fine
units. -/
def Channel.InWindow (ch : Channel) (w : Int × Int) (amax : Nat) : Prop :=
  w.1 ≤ ch.p ∧ ch.p ≤ w.2 ∧
  w.1 ≤ stoppingExtent ch.p ch.v amax ∧ stoppingExtent ch.p ch.v amax ≤ w.2

/-- n steps of the stop generator. -/
def Channel.generateN : Nat → Channel → Channel
  | 0, ch => ch
  | n + 1, ch => Channel.generateN n ch.generate

/-- R51 over the whole part, with what it rests on: every axis record has a window and decelerations of its
range; every channel is on Track in Setup; in Run a present motion axis is on Track exactly in
Safe-Off, and a present lens channel whose mode is not Off is not on Track; and a present channel that
is not on Track keeps its shaped position and its stopping extent at Amax in its axis window, which for
a motion axis is its effective window (R45). A lens channel in Off has no request of its own. -/
structure Part.WindowLaw (s : Part) : Prop where
  sane : ∀ c : Slot, s.shaper.axes[c].pmin ≤ s.shaper.axes[c].pmax ∧
    1 ≤ s.shaper.axes[c].amax ∧ s.shaper.axes[c].amax ≤ s.shaper.axes[c].astop
  setup : s.lane.mode = .setup → ∀ c : Slot, s.shaper.chans[c].source = .track
  motion : ∀ a : Axis, s.shaper.axes[Axis.slot a].present = true →
    (s.shaper.chans[Axis.slot a].source = .track ↔ s.seq.state = .safeOff)
  lens : ∀ l : LensIx, s.lane.mode = .run → s.shaper.axes[LensIx.slot l].present = true →
    s.lens.chans[l].mode ≠ .off → s.shaper.chans[LensIx.slot l].source ≠ .track
  inside : ∀ c : Slot, s.shaper.axes[c].present = true → s.shaper.chans[c].source ≠ .track →
    (∀ l : LensIx, c = LensIx.slot l → s.lens.chans[l].mode ≠ .off) →
    s.shaper.chans[c].InWindow (s.shaper.axes[c].pmin * 65536, s.shaper.axes[c].pmax * 65536)
      s.shaper.axes[c].amax
  ramp : ∀ c : Slot, s.shaper.axes[c].present = true → s.shaper.chans[c].source = .stop →
    s.shaper.axes[c].amax ≤ s.shaper.chans[c].rampDecel

/-! ## The frames of a served cycle -/

/-- R13: what a served cycle leaves of a drive frame that was still outstanding when its own was to leave;
with none outstanding, none is missed. -/
def Part.MissSettled (s t : Part) : Prop :=
  match s.gateway.outstanding with
  | none =>
    t.portA = s.portA ∧ t.gateway.driveMiss = s.gateway.driveMiss ∧
    t.gateway.feedback = s.gateway.feedback
  | some o =>
    (∃ r : ReturnFrame, t.portA = s.portA ++ [r] ∧ r.cycle = o.cycle ∧
      (∀ c : Slot, r.stale[c] = true) ∧
      ∀ a : Axis, r.values[Axis.slot a] = s.gateway.feedback[Axis.slot a].actual) ∧
    t.gateway.driveMiss = min 255 (s.gateway.driveMiss + 1) ∧
    (∀ c : Slot, t.gateway.feedback[c] = { s.gateway.feedback[c] with stale := true }) ∧
    (s.gateway.missLimit ≤ t.gateway.driveMiss →
      t.seq.state = .safeOff ∧ t.seq.causes.getLsbD 6 = true)

/-- A slot is driven (R10): in Run, present, and not a lens channel in Off. -/
def Part.Driven (s : Part) (c : Slot) : Prop :=
  s.lane.mode = .run ∧ s.shaper.axes[c].present = true ∧
  ∀ l : LensIx, c = LensIx.slot l → s.lens.chans[l].mode ≠ .off

/-- R10, R11: the slots of the drive frame that a served cycle from s to t emits. The flags are those of the
part at the end of the cycle's own work, after the zone tests and the divergence check, which is the
model's choice (log 6). -/
structure Part.EmitsSlots (s t : Part) (d : DriveFrame) : Prop where
  /-- Setup, an absent channel, a lens channel in Off -/
  idle : ∀ c : Slot, ¬ s.Driven c → d.slots[c] = ⟨s.gateway.feedback[c].actual, false, false⟩
  lens : ∀ l : LensIx, s.Driven (LensIx.slot l) →
    d.slots[LensIx.slot l].torque = true ∧ d.slots[LensIx.slot l].release = true
  motion : ∀ a : Axis, s.Driven (Axis.slot a) →
    d.slots[Axis.slot a].torque = (t.seq.state != .safeOff) ∧
    d.slots[Axis.slot a].release = t.seq.state.release t.seq.readiness
      s.shaper.axes[Axis.slot a].brakePresent
  /-- a channel that stays off Track carries the count of its shaped position -/
  shaped : s.PlayLaw → ∀ c : Slot, s.Driven c → s.shaper.chans[c].source ≠ .track →
    t.shaper.chans[c].source ≠ .track → d.slots[c].setpoint = countOf t.shaper.chans[c].p
  /-- a channel on Track in Safe-Off carries its last actual count -/
  tracked : s.PlayLaw → ∀ c : Slot, s.Driven c → s.seq.state = .safeOff →
    s.shaper.chans[c].source = .track → d.slots[c].setpoint = s.gateway.feedback[c].actual

/-! ## The step of a served cycle -/

/-- R112, R116: the lens mapper once a served cycle has begun: each pending table in force, the target
aged. -/
def LensMapper.begun (m : LensMapper) : LensMapper :=
  let age := min 65536 (m.target.age + 1)
  { m with
    chans := Vector.ofFn fun l : LensIx => (match m.chans[l].pending with
      | none => m.chans[l]
      | some table => { m.chans[l] with active := table, pending := none })
    target := { m.target with
      age := age, stale := !m.target.present || decide (m.target.refresh < age) } }

/-- R44: the request of a motion axis. On Stop and Track it has none. -/
def Part.MotionAsks (m : Part) (a : Axis) (r : Int) : Prop :=
  let ch := m.shaper.chans[Axis.slot a]
  match ch.source with
  | .live => r = m.gateway.demands[Axis.slot a].last * 65536
  | .take => ∀ v, m.player.held[Axis.slot a] = some v → r = v
  | .parked => r = ch.park
  | .stop => True
  | .track => True

/-- R44, R107, R117 to R120: the request of a lens channel, and the channel's record once it is formed. A
channel in Off is formed as in Direct (log 55). -/
def Part.LensAsks (m : Part) (l : LensIx) (after : LensChannel) (r : Int) : Prop :=
  let ch := m.shaper.chans[LensIx.slot l]
  let lc := m.lens.chans[l]
  let f := m.gateway.feedback[LensIx.slot l]
  let g := m.lens.target
  let tip := m.zone.currentTip
  let mapped : Prop := lc.mode = .map ∨ lc.mode = .follow
  let inRange (x : Int) : Int := max (physRange lc.active).1 (min x (physRange lc.active).2)
  let fresh : Prop := f.stale = false ∧ f.status.fault = false ∧ (lc.mode = .follow → g.stale = false)
  let distance : Nat := isqrt ((g.point.x - tip.x) ^ 2 + (g.point.y - tip.y) ^ 2 +
    (g.point.z - tip.z) ^ 2).toNat
  let value : Int := if lc.mode = .follow then (((distance + 50) / 100 : Nat) : Int) + g.offset
    else m.gateway.demands[LensIx.slot l].last
  match ch.source with
  | .live =>
    (¬ mapped → ∃ x, (fresh → x = value) ∧ (¬ fresh → x = lc.lastDemand) ∧
      after = { lc with lastDemand := x } ∧ r = x * 65536) ∧
    (mapped → ∃ x, (fresh → x = inRange value) ∧ (¬ fresh → x = lc.lastDemand) ∧
      after = { lc with lastDemand := x, physical := x.toNat } ∧
      r = forwardMap lc.active x * 65536)
  | .take =>
    (¬ mapped → after = lc ∧ ∀ v, m.player.held[LensIx.slot l] = some v → r = v) ∧
    (mapped → ∀ v, m.player.held[LensIx.slot l] = some v →
      let x := inRange ((v + 32768) / 65536)
      after = { lc with physical := x.toNat } ∧ r = forwardMap lc.active x * 65536)
  | .parked =>
    r = ch.park ∧ (¬ mapped → after = lc) ∧
    (mapped → after = { lc with physical := (reverseMap lc.active ((ch.park + 32768) / 65536)).toNat })
  | .stop => after = lc
  | .track => after = lc

/-- R39, R45, R46, R50: the shaped state that a served cycle's step gives a channel for a request: shaped
towards the request clamped to the window, at the speed scale in force for a motion axis; run down on
Stop; on Track set from the feedback record. -/
def Part.StepsTo (m : Part) (c : Slot) (r p v : Int) : Prop :=
  let ch := m.shaper.chans[c]
  let ax := m.shaper.axes[c]
  let inWindow (x : Int) : Int := max ((m.window c).1 * 65536) (min x ((m.window c).2 * 65536))
  match ch.source with
  | .stop => v = ch.v.sign * max ((ch.v.natAbs : Int) - ch.rampDecel) 0 ∧ p = ch.p + v
  | .track => v = 0 ∧ p = inWindow (m.gateway.feedback[c].actual * 65536)
  | _ =>
    let e := inWindow r - ch.p
    let most : Int := ((max 1 (ax.vmax * (if c.val < 8 then m.shaper.sigma else 4096) / 4096) : Nat) : Int)
    let vt := max (-most) (min (e.sign * (brakingSpeed e.natAbs ax.amax : Int)) most)
    v = max (ch.v - ax.amax) (min vt (ch.v + ax.amax)) ∧ p = ch.p + v

/-- R54, R70, R89, R161, R178, R185: what follows the shaper's step in a served cycle that began at m and ends
in t, up to its drive frame: the divergence check, the zone monitor's work, the recorder's sample, the end
of a ramp and the report of arrival to the player, in this order (log 7). It starts from m with the shaped
states and the lens records that the step left. -/
def Part.afterStep (m t : Part) (requests : Vector Int 12) : Part :=
  let stepped : Part := { m with
    shaper := { m.shaper with chans := (Vector.ofFn fun c : Slot =>
      { m.shaper.chans[c] with p := t.shaper.chans[c].p, v := t.shaper.chans[c].v }) }
    lens := { m.lens with chans := t.lens.chans } }
  ((stepped.checkDivergence requests).zoneWork.sampleInstant.checkRampEnd
    (m.seq.state = .ramping)).arrivalReport requests

/-- R13, R16: the part `cycle` before a drive frame leaves, t after it: a frame still outstanding is counted as
missed, its return frame takes replies, and at the miss limit DriveLink is posted. -/
def Part.missed (cycle t : Part) : Part :=
  if cycle.gateway.outstanding = none then cycle else
    let told : Part := { cycle with
      gateway := { cycle.gateway with
        outstanding := none, driveMiss := t.gateway.driveMiss, feedback := t.gateway.feedback }
      lane := { cycle.lane with queue := (takeReplies 480 cycle.lane.queue).2 }
      portA := t.portA }
    if cycle.gateway.missLimit ≤ t.gateway.driveMiss then told.post .driveLink .hard 0 else told

/-- R39, R44 to R46, R50, R54, R89, R107, R117 to R120: what the rest of a served cycle makes, in t, of the part m
at which the requests are formed. That divergence is checked before the zone tests, and the end of a
ramp after them, is the model's choice (log 7). -/
structure Part.CycleSteps (m t : Part) (requests : Vector Int 12) : Prop where
  axes : t.shaper.axes = m.shaper.axes
  target : t.lens.target = m.lens.target
  lens : ∀ l : LensIx, m.LensAsks l t.lens.chans[l] requests[LensIx.slot l]
  motion : ∀ a : Axis, m.MotionAsks a requests[Axis.slot a]
  step : ∀ c : Slot, m.StepsTo c requests[c] t.shaper.chans[c].p t.shaper.chans[c].v
  /-- with no change of stop state, and no cue at its end, a channel changes in nothing else -/
  kept : t.seq.state = m.seq.state ∨ (m.seq.state = .ramping ∧ t.seq.state = .settling) →
    m.player.state ≠ .closing → ∀ c : Slot, t.shaper.chans[c] =
      { m.shaper.chans[c] with p := t.shaper.chans[c].p, v := t.shaper.chans[c].v }
  /-- R54: the check against the request before its clamp -/
  divergence :
    let strays (c : Slot) : Prop := m.shaper.axes[c].present = true ∧
      m.shaper.chans[c].source = .take ∧ m.shaper.axes[c].divergence ≠ 0 ∧
      m.shaper.axes[c].divergence < (countOf t.shaper.chans[c].p - countOf requests[c]).natAbs
    (m.player.state = .playing → (∃ c, strays c) →
      t.seq.causes.getLsbD 8 = true ∧ t.seq.state ≠ .running ∧ t.player.haltReason =
        if m.player.haltReason = .none then .diverged else m.player.haltReason) ∧
    (¬ (m.player.state = .playing ∧ ∃ c, strays c) →
      t.seq.causes.getLsbD 8 = m.seq.causes.getLsbD 8)
  /-- R89, R91: a ramp whose step leaves every present motion axis at rest ends in Settling, unless a Hard
  cause of the cycle (Zone, Boundary, DriveLink) stopped the crane -/
  rampEnd : m.seq.state = .ramping →
    (t.seq.state = .safeOff ∧ (t.seq.causes.getLsbD 2 = true ∨ t.seq.causes.getLsbD 3 = true ∨
      t.seq.causes.getLsbD 6 = true)) ∨
    (let rest : Prop := ∀ a : Axis, m.shaper.axes[Axis.slot a].present = true →
       t.shaper.chans[Axis.slot a].v = 0
     (¬ rest → t.seq.state = .ramping) ∧
     (rest → t.seq.state = .settling ∧ t.seq.phaseStart = m.gateway.cycle ∧ t.seq.phaseCount = 0 ∧
       ∀ a : Axis, m.shaper.axes[Axis.slot a].present = true →
         t.seq.axes[a].stillRun = 0 ∧ t.seq.axes[a].reference = none))
  noRampEnd : m.seq.state ≠ .ramping → m.seq.state ≠ .settling → t.seq.state ≠ .settling
  /-- R54, R70, R161, R178, R185: the zone monitor's work, the recorder's sample and the player's arrival take
  place, once each; of the gateway and port B other clauses speak -/
  work : t = { (m.afterStep t requests).missed t with gateway := t.gateway, portB := t.portB }

/-! ## Frame marks -/

/-- R130: the part once a phase point has expired now: the frame count one higher, no phase point, and a
mark of its phase handed to the recorder and then to the player. -/
def Part.marked (p : Part) : Part :=
  let phase := min 255 (256 * (p.now - p.gateway.servedTime) / p.gateway.period)
  let q : Part := { p with sync := { p.sync with
    phasePoint := none, frameCount := p.sync.frameCount + 1 } }
  (q.markToRecorder phase).markToPlayer phase

/-- R129: the part once the phase point of an edge is scheduled: one still pending expires first, and a time
that is not later than now expires at once. -/
def Part.pointed (p : Part) (edge : Nat) : Part :=
  let point := edge + p.sync.zavg * p.sync.weight / 256
  let q := if p.sync.phasePoint = none then p else p.marked
  if point ≤ p.now then q.marked else { q with sync := { q.sync with phasePoint := some point } }

/-! ## The take array -/

/-- A request of the service lane stands in its list, or is the operation in progress (R138). -/
def TakeArray.LaneHolds (t : TakeArray) (j : Job) : Prop :=
  j ∈ t.laneJobs ∨ t.operation = some (.job j false)

/-- A request of the recorder stands in its list, or is the operation in progress (R138). -/
def TakeArray.RecorderHolds (t : TakeArray) (j : Job) : Prop :=
  j ∈ t.recorderJobs ∨ t.operation = some (.job j false)

/-- A read of the player stands in its list, or is the operation in progress (R138). -/
def TakeArray.PlayerHolds (t : TakeArray) (j : Job) : Prop :=
  j ∈ t.playerJobs ∨ t.operation = some (.job j false)

/-- The operations asked for: the one in progress and those in the three lists (R138). -/
def TakeArray.work (t : TakeArray) : List Job :=
  (match t.operation with
    | some (.job j _) => [j]
    | _ => []) ++ t.playerJobs ++ t.recorderJobs ++ t.laneJobs

/-- R135: the bays where they stand: in the erased queue, in the dirty queue, in a slot's bay list, under the
erase in progress, under the suspended erase. -/
def TakeArray.places (t : TakeArray) : List Bay :=
  t.erased ++ t.dirty ++ ((List.finRange 64).flatMap fun i : DirIx => t.directory[i].bays) ++
  (match t.operation with
    | some (.erase bay) => [bay]
    | _ => []) ++ t.suspended.toList

/-- R142, R143: what the scan has found so far stands apart: the bays of the headers read, each read once; and
then the erased bays and those of the takes. -/
def TakeArray.ScanApart (t : TakeArray) (sc : Scan) : Prop :=
  match sc.phase with
  | .headers next =>
    (sc.erased ++ sc.owned.map (·.bay)).Nodup ∧
    ∀ b ∈ sc.erased ++ sc.owned.map (·.bay), b.val < next
  | .pages _ _ _ _ =>
    (sc.erased ++ (List.finRange 64).flatMap fun i : DirIx => t.directory[i].bays).Nodup

/-- R135: once the scan is complete, each of the 512 bays stands in exactly one place. The other clauses say
what keeps it so. -/
structure Part.BayLaw (s : Part) : Prop where
  once : s.array.scanComplete = true → ∀ bay : Bay, s.array.places.count bay = 1
  /-- R140: at most one erase is in progress or suspended -/
  oneErase : ∀ bay, s.array.operation = some (.erase bay) → s.array.suspended = none
  /-- R146: an Empty slot has no bays -/
  empty : ∀ i : DirIx, s.array.directory[i].state = .empty → s.array.directory[i].bays = []
  /-- R145: the scan is the array's only work -/
  scanning : ∀ sc, s.array.scan = some sc → s.array.scanComplete = false ∧
    s.array.operation = none ∧ s.array.suspended = none ∧
    (∀ j ∈ s.array.work, j.isRetire = false) ∧ s.array.ScanApart sc
  /-- R149: a Take Erase has one retire at a time, of a bay of its Retiring slot, and no clear is under way -/
  retire : ∀ (i : DirIx) (bay : Bay), .retire i bay ∈ s.array.work →
    s.array.clearing = false ∧ s.array.directory[i].state = .retiring ∧
    bay ∈ s.array.directory[i].bays ∧
    (s.array.work.filter fun j => j.isRetire && decide (j.slot = i)).length = 1
  /-- R152: a clear has one retire at a time, and is under way -/
  clear : ∀ (i : DirIx) (bay : Bay), .clearRetire i bay ∈ s.array.work →
    s.array.clearing = true ∧ (s.array.work.filter Job.isRetire).length = 1
  /-- R158: a recorder that is not Idle has a slot in Recording -/
  recording : s.recorder.state ≠ .idle → s.array.scanComplete = true ∧
    ∃ i, s.recorder.slot = some i ∧ s.array.directory[i].state = .recording
  /-- R165, R166: a reserved bay stands in the list of the recorder's slot -/
  reserved : ∀ bay, s.recorder.reserved = some bay →
    (s.recorder.state = .recording ∨ s.recorder.state = .stalled) ∧
    ∀ i, s.recorder.slot = some i → bay ∈ s.array.directory[i].bays

/-- R139, R140: a controller at rest has nothing to do. With no scan, nothing waits unless a read or a program is
in progress, and with no operation at all no erase is suspended and no bay dirty. -/
structure Part.WorkLaw (s : Part) : Prop where
  scanning : s.array.scan ≠ none → s.array.operation = none
  oneErase : ∀ bay, s.array.operation = some (.erase bay) → s.array.suspended = none
  waits : s.array.scan = none → (∀ j w, s.array.operation ≠ some (.job j w)) →
    s.array.playerJobs = [] ∧ s.array.recorderJobs = [] ∧ s.array.laneJobs = []
  rests : s.array.scan = none → s.array.operation = none →
    s.array.suspended = none ∧ s.array.dirty = []

/-- R138 to R140: lane requests have reached the array: it stands in t as it does once the controller has acted
on their arrival, the array being `placed` with them in the lane's list. -/
def Part.LaneArrival (s t : Part) (placed : TakeArray) : Prop :=
  ∃ lane, t.array = (Part.kick { s with lane := lane, array := placed }).array

/-- R139: a request is performed: a retire on its slot, any other while its slot is neither Retiring nor Empty
and the chain holds its page. -/
def TakeArray.Available (t : TakeArray) (j : Job) : Prop :=
  j.isRetire = true ∨ (t.directory[j.slot].state ≠ .retiring ∧ t.directory[j.slot].state ≠ .empty ∧
    ∀ k, j.dataPage = some k → k / 255 < t.directory[j.slot].bays.length)

/-- R133, R142, R155: an address that a program or an erase cut short may have left changed: the take header
of a header program, the page of a data program, the lock or the retire byte, the bay of an erase in
progress or suspended; a read changes none. -/
def TakeArray.Cut (t : TakeArray) (x : Nat) : Prop :=
  (∃ bay : Bay, (t.operation = some (.erase bay) ∨ t.suspended = some bay) ∧
    bay.val * 65536 ≤ x ∧ x < bay.val * 65536 + 65536) ∨
  ∃ (j : Job) (w : Bool), t.operation = some (.job j w) ∧
    match j with
    | .recorderHeader bay _ => bay.val * 65536 + 16 ≤ x ∧ x < bay.val * 65536 + 48
    | .writeHeader bay _ => bay.val * 65536 + 16 ≤ x ∧ x < bay.val * 65536 + 48
    | .recorderData slot page _ _ =>
      ∃ a, t.directory[slot].dataAddress page = some a ∧ a ≤ x ∧ x < a + 256
    | .writeData _ slot page _ =>
      ∃ a, t.directory[slot].dataAddress page = some a ∧ a ≤ x ∧ x < a + 256
    | .lock _ _ bay => x = bay.val * 65536 + 65
    | .retire _ bay => x = bay.val * 65536 + 64
    | .clearRetire _ bay => x = bay.val * 65536 + 64
    | .playerRead _ _ => False
    | .takeRead _ _ _ => False

/-! ## The player -/

/-- R176, R187: the lens modes of the played lens channels pair with those of the take: Direct with Direct,
Map and Follow with Map and Follow; Off pairs with none. -/
def Part.ModesPair (s : Part) (played : Mask) (info : TakeInfo) : Prop :=
  ∀ l : LensIx, played.getLsbD (l.val + 8) = true →
    (info.modes[l] = .direct ∧ s.lens.chans[l].mode = .direct) ∨
    ((info.modes[l] = .map ∨ info.modes[l] = .follow) ∧
      (s.lens.chans[l].mode = .map ∨ s.lens.chans[l].mode = .follow))

/-- R176, R187: a take value v, as the count that its channel would be sent (through the active table in Map
and Follow, the value clamped to its physical range), lies in the channel's effective window. A lens
channel in Off is judged as in Direct (log 55). -/
def Part.ValueInside (s : Part) (c : Slot) (v : Int) : Prop :=
  let n := (v + 32768) / 65536
  let count : Int := match lensOf c with
    | none => n
    | some l =>
      let table := s.lens.chans[l].active
      if s.lens.chans[l].mode = .map ∨ s.lens.chans[l].mode = .follow then
        forwardMap table (max (physRange table).1 (min n (physRange table).2))
      else n
  (s.window c).1 ≤ count ∧ count ≤ (s.window c).2

/-! ## The recorder's pages -/

/-- R162: the entries that write the pending hold. -/
def Recorder.heldRun (r : Recorder) : List Entry :=
  if r.pendingHold = 0 then [] else [.hold r.pendingHold]

/-- R164: a recorder with entries placed in a buffer, directly after those it holds. -/
def Recorder.withEntries (r : Recorder) (f : BufferId) (es : List Entry) : Recorder :=
  r.setBuffer f { r.buffer f with entries := (r.buffer f).entries ++ es.flatMap Entry.bytes }

/-- R164: the Filling page of a buffer leaves the headroom of a take with c channels. -/
def Recorder.Roomy (r : Recorder) (f : BufferId) (c : Nat) : Prop :=
  16 + max 16 (8 + 4 * c) ≤ 254 - (r.buffer f).entries.length

/-- R165: a recorder whose page k in a buffer was turned: that buffer Queued, the other Filling for page
k + 1 from its first entries on, no bay reserved. -/
def Recorder.turned (r : Recorder) (f : BufferId) (k : Nat) (opening : List Entry) : Recorder :=
  { (r.setBuffer f { r.buffer f with state := .queued }).setBuffer f.other
      ⟨.filling, some (k + 1), opening.flatMap Entry.bytes⟩ with reserved := none, nextPage := k + 2 }

/-- R165: the turn of page k in a buffer waits: for a bay to start page k + 1 in, or for the other
buffer. -/
def Recorder.Waits (r : Recorder) (f : BufferId) (k : Nat) : Prop :=
  ((k + 1) % 255 = 0 ∧ r.reserved = none) ∨ (r.buffer f.other).state = .queued

/-- R165, R166, R168: the array has what a queued page asks of it: its data program, and the header program of
the bay that was reserved, where the slot is Recording and its chain holds the page. -/
def Part.PageQueued (q : Part) (i : DirIx) (f : BufferId) (k : Nat) (entries : List Byte)
    (reserved : Option Bay) : Prop :=
  let d := q.array.directory[i]
  d.state = .recording → k / 255 < d.bays.length →
    q.array.RecorderHolds (.recorderData i k f entries) ∧
    ∀ bay, reserved = some bay →
      q.array.RecorderHolds (.recorderHeader bay ⟨i, d.bays.length - 1, d.info⟩)

/-! ## Ranges -/

/-- The saturating counters stand in their ranges (sections 1.1, 2.1, 5.1, 9.1, 10.2). -/
structure Part.CountersInRange (s : Part) : Prop where
  late : s.gateway.lateCount ≤ 255
  bad : s.gateway.badCount ≤ 255
  controllerMiss : s.gateway.controllerMiss ≤ 255
  driveMiss : s.gateway.driveMiss ≤ 255
  dropped : s.lane.dropped ≤ 255
  phase : s.seq.phaseCount ≤ 65535
  missed : s.recorder.missed ≤ 65535
  autoPoll : s.player.autoCount ≤ 65535

/-- R46, R62: the speed scale in force lies in 256–4,096, and every entry's scale in 256–4,095. -/
structure Part.ScaleInRange (s : Part) : Prop where
  sigma_low : 256 ≤ s.shaper.sigma
  sigma_high : s.shaper.sigma ≤ 4096
  zones : ∀ i : ZoneIx, 256 ≤ s.zone.zones[i].scale ∧ s.zone.zones[i].scale ≤ 4095

/-! ## The reply queue -/

/-- The ticket of the reply that a job's completion answers. -/
def Job.ticket : Job → Option Nat
  | .takeRead ticket _ _ => some ticket
  | .writeData ticket _ _ _ => some ticket
  | .lock ticket _ _ => some ticket
  | .playerRead _ _ => none
  | .recorderHeader _ _ => none
  | .recorderData _ _ _ _ => none
  | .writeHeader _ _ => none
  | .retire _ _ => none
  | .clearRetire _ _ => none

/-- The job of an operation. -/
def Operation.theJob : Operation → Option Job
  | .job j _ => some j
  | .erase _ => none

/-- The tickets that the service lane's requests at the take array hold: waiting, or in progress. -/
def TakeArray.tickets (t : TakeArray) : List Nat :=
  ((t.operation.bind Operation.theJob).toList ++ t.laneJobs).filterMap Job.ticket

/-- Section 2.1, R23, R25: the reply queue holds at most 32 entries, their tickets rise in the order they
were reserved, and no entry and no request at the take array holds a ticket not yet drawn. -/
structure Part.QueueLaw (s : Part) : Prop where
  bounded : s.lane.queue.length ≤ queueLimit
  rising : s.lane.queue.Pairwise fun a b => a.ticket < b.ticket
  fresh : ∀ e ∈ s.lane.queue, e.ticket < s.lane.nextTicket
  jobs : ∀ n ∈ s.array.tickets, n < s.lane.nextTicket

/-! ## Answered requests -/

/-- The service lane unit after a request was read and answered at once (R22, R23): one Ready entry
at the tail of the queue. -/
def ServiceLane.push (l : ServiceLane) (kind tag : Byte) (a : Answer) : ServiceLane :=
  { l with queue := l.queue ++ [⟨l.nextTicket, tag, kind, some a⟩], nextTicket := l.nextTicket + 1 }

/-- A part whose request was answered at once. -/
def Part.push (s : Part) (kind tag : Byte) (a : Answer) : Part :=
  { s with lane := s.lane.push kind tag a }

/-- A request read now finds room in the reply queue, and its ticket is its own. -/
structure Part.Room (s : Part) : Prop where
  room : s.lane.queue.length < queueLimit
  fresh : ∀ e ∈ s.lane.queue, e.ticket < s.lane.nextTicket
  jobs : ∀ n ∈ s.array.tickets, n < s.lane.nextTicket

/-- The reply of the request read last: the entry at the tail of the queue. -/
def ServiceLane.tail (l : ServiceLane) : Option ReplyEntry := l.queue.getLast?

/-- The part after a request that was answered Done without data. -/
def Part.pushDone (s : Part) (kind tag : Byte) : Part := s.push kind tag ⟨.done, []⟩

/-- The part after a request that was refused: nothing but its reply (R26). -/
def Part.pushRefusal (s : Part) (kind tag : Byte) (code : ResultCode) : Part :=
  s.push kind tag ⟨code, []⟩

/-- The codes with which a request was accepted. -/
def ResultCode.accepts : ResultCode → Bool
  | .done => true | .started => true
  | .badRecord => false | .unknown => false | .wrongMode => false | .wrongState => false
  | .busy => false | .owned => false | .locked => false | .frozen => false | .range => false
  | .unreachable => false | .blocked => false | .invalid => false | .noSpace => false
  | .notYet => false | .late => false

/-- Who decides a request: its owner's check and effect, given the ticket of its reply. None for a
command that is not a request. -/
def ownerOf : Instr → Option (Nat → Part → Served)
  | .gatewaySet _ period missLimit => some fun _ p => p.requestGatewaySet period missLimit
  | .mode _ want => some fun _ p => p.requestMode want
  | .restart _ => some fun _ p => if p.lane.mode = .setup then done p else refuse p .wrongMode
  | .axisSet _ target record => some fun _ p => p.requestAxisSet target record
  | .axisRead _ target => some fun _ p => p.requestAxisRead target
  | .sourceLive _ mask => some fun _ p => p.requestSourceLive mask
  | .geometrySet _ body => some fun _ p => p.requestGeometrySet body
  | .zoneSet _ body => some fun _ p => p.requestZoneSet body
  | .zoneClear _ index => some fun _ p => p.requestZoneClear index
  | .liveZoneUpdate _ index box => some fun _ p => p.requestLiveZoneUpdate index box
  | .zoneRead _ index => some fun _ p => p.requestZoneRead index
  | .stop _ category => some fun _ p => p.requestStop category
  | .rearm _ recover => some fun _ p => p.requestRearm recover
  | .continueStop _ => some fun _ p => p.requestContinue
  | .lensModeSet _ channel mode => some fun _ p => p.requestLensModeSet channel mode
  | .lensPoints _ body => some fun _ p => p.requestLensPoints body
  | .lensCommit _ channel count => some fun _ p => p.requestLensCommit channel count
  | .lensTableRead _ body => some fun _ p => p.requestLensTableRead body
  | .targetUpdate _ body => some fun _ p => p.requestTargetUpdate body
  | .syncSet _ weight preset value => some fun _ p => p.requestSyncSet weight preset value
  | .recordStart _ body => some fun _ p => p.requestRecordStart body
  | .recordStop _ => some fun _ p => p.requestRecordStop
  | .takeErase _ slot => some fun _ p => p.requestTakeErase slot
  | .takeLock _ slot => some fun ticket p => p.requestTakeLock slot ticket
  | .protectionFreeze _ => some fun _ p => p.requestFreeze
  | .arrayClear _ => some fun _ p => p.requestArrayClear
  | .directoryRead _ slot => some fun _ p => p.requestDirectoryRead slot
  | .takeRead _ slot page => some fun ticket p => p.requestTakeRead slot page ticket
  | .takeImport _ body => some fun _ p => p.requestTakeImport body
  | .pageWrite _ slot page => some fun ticket p => p.requestPageWrite slot page ticket
  | .importClose _ slot => some fun _ p => p.requestImportClose slot
  | .cueWrite _ body => some fun _ p => p.requestCueWrite body
  | .cueRead _ index => some fun _ p => p.requestCueRead index
  | .cuePoll _ => some fun _ p => p.requestCuePoll
  | .playerStart _ interval => some fun _ p => p.requestPlayerStart interval
  | .playerStop _ => some fun _ p => p.requestPlayerStop
  | .go _ => some fun _ p => p.requestGo
  | .resume _ => some fun _ p => p.requestResume
  | .abandon _ => some fun _ p => p.requestAbandon
  | .malformedRecord _ _ => none
  | .unknownRecord _ _ => none
  | .cycleFrame _ _ => none
  | .fillCycle => none
  | .driveFrameReturn _ => none
  | .reset _ _ => none
  | .eStopOpen => none
  | .eStopClose => none
  | .guardOpen => none
  | .guardClose => none
  | .stillTimeout => none
  | .brakeTimer => none
  | .brakeTimeout => none
  | .releaseTimer => none
  | .armingTimeout => none
  | .syncEdge _ => none
  | .lossTime => none
  | .edgeSynthesis => none
  | .phasePointExpiry => none
  | .pageReadComplete => none
  | .pageProgramComplete => none
  | .bayEraseComplete => none
  | .scanReadComplete => none
  | .autoPoll => none

/-! ## The table of R81 -/

/-- R81, with R94 and R96: the stop state after a cause; `brakes` says that a present motion axis has a
brake, without which a Braking completes in the action that enters it. -/
def StopState.after (state : StopState) (category : Category) (brakes : Bool) : StopState :=
  match category, state with
  | .hold, .running => .ramping
  | .hold, other => other
  | .ramp, .running => .ramping
  | .ramp, .holding => if brakes then .braking else .safeOff
  | .ramp, .arming => .safeOff
  | .ramp, other => other
  | .hard, _ => .safeOff

/-- R81, R90, R94, R97: the category in force after a cause. -/
def InForce.after (old : InForce) (state : StopState) (category : Category) : InForce :=
  match category, state with
  | .hold, .running => .hold
  | .ramp, .running => .ramp
  | .ramp, .ramping => .ramp
  | .ramp, .settling => .ramp
  | .ramp, .holding => .none
  | .ramp, .arming => .none
  | .hard, .safeOff => old
  | .hard, _ => .none
  | _, _ => old

/-- A present motion axis has a brake. -/
def Part.hasBrake (s : Part) : Bool :=
  s.shaper.motion.any fun a => s.shaper.axes[Axis.slot a].brakePresent

/-! ## Rounding -/

/-- Section 5.3 of the scope file: k is n / d rounded half away from zero, for a positive d. -/
def RoundsTo (n d k : Int) : Prop :=
  2 * (n - k * d).natAbs ≤ d.natAbs ∧
  (2 * (n - k * d).natAbs = d.natAbs → n.natAbs < (k * d).natAbs)

/-! ## Zones -/

/-- R68: an entry a served cycle later: Live data ages, and once its age is above the refresh limit each
face of the effective box moves outward by the growth. -/
def ZoneEntry.aged (z : ZoneEntry) : ZoneEntry :=
  let age := min 65536 (z.age + 1)
  if z.state = .live then
    { z with
      age := age
      effective := (if z.refresh < age then
        ⟨max (-268435455) (z.effective.xmin - z.growth), min 268435455 (z.effective.xmax + z.growth),
         max (-268435455) (z.effective.ymin - z.growth), min 268435455 (z.effective.ymax + z.growth),
         max (-268435455) (z.effective.zmin - z.growth), min 268435455 (z.effective.zmax + z.growth)⟩
        else z.effective) }
  else z

/-- R71: a point hits an entry: a KeepOut or Slow one inside its widened box on every axis, a KeepIn one
outside its narrowed box on some axis, an Unused one never. -/
def ZoneEntry.Hits (z : ZoneEntry) (p : Point) : Prop :=
  let e := z.effective
  let m : Int := z.margin
  z.state ≠ .unused ∧
  if z.kind = .keepIn then
    p.x < e.xmin + m ∨ e.xmax - m < p.x ∨ p.y < e.ymin + m ∨ e.ymax - m < p.y ∨
      p.z < e.zmin + m ∨ e.zmax - m < p.z
  else
    e.xmin - m ≤ p.x ∧ p.x ≤ e.xmax + m ∧ e.ymin - m ≤ p.y ∧ p.y ≤ e.ymax + m ∧
      e.zmin - m ≤ p.z ∧ p.z ≤ e.zmax + m

/-- R74: a speed scale is the one worked out: the least of the scales of the Slow entries in the stop hit
mask, of 4,096, and of 256 while the recovery flag is set. -/
def ZoneMonitor.WorksOut (z : ZoneMonitor) (sigma : Nat) : Prop :=
  let slow (i : ZoneIx) : Prop := z.stopHits.getLsbD i.val = true ∧ z.zones[i].kind = .slow
  sigma ≤ 4096 ∧ (z.recovery = true → sigma ≤ 256) ∧ (∀ i, slow i → sigma ≤ z.zones[i].scale) ∧
  (sigma = 4096 ∨ (z.recovery = true ∧ sigma = 256) ∨ ∃ i, slow i ∧ sigma = z.zones[i].scale)

/-- A part after an accepted zone request: one entry replaced, the two hit masks and the speed scale
as given. -/
def Part.withZone (s : Part) (i : ZoneIx) (z : ZoneEntry) (current stop : BitVec 16) (sigma : Nat) : Part :=
  { s with
    zone := { s.zone with zones := s.zone.zones.set i z, currentHits := current, stopHits := stop }
    shaper := { s.shaper with sigma := sigma } }

/-- R71, R72, R74: the hit masks are those of the tips in the tip record and of the table as it stands, and
the speed scale in force is the one worked out from them. -/
structure Part.MasksAgree (s : Part) : Prop where
  current : ∀ i : ZoneIx,
    s.zone.currentHits.getLsbD i.val = true ↔ s.zone.zones[i].Hits s.zone.currentTip
  stop : ∀ i : ZoneIx, s.zone.stopHits.getLsbD i.val = true ↔ s.zone.zones[i].Hits s.zone.stopTip
  sigma : s.zone.WorksOut s.shaper.sigma

end Sys2Proof.Machine
end

