-- ==== Sys2Proof/Certificates/Slice0/Obligations.lean ====
section
/-! DEFINITION. The statements for the provers: what the commands of the part do, what its reset leaves and
what every step keeps. A statement about a request is made for a state with room in the reply queue
(`Part.Room`); `FullQueueDropsRequests` says what happens without it. -/

open Sys2Proof Sys2Proof.Machine

/-! ## The step and the service lane (chapter 2) -/

/-- Section 2.4 and log 1: a step executes the command at the front of the queue on the state with the
queue's rest, and idles on an empty queue. -/
def Obligations.StepRunsFrontCommand : Prop :=
  (∀ (c : Instr) (rest : List Instr) (p : Part), step ⟨p, c :: rest⟩ = exec c ⟨p, rest⟩) ∧
  (∀ p : Part, step ⟨p, []⟩ = .next ⟨p, []⟩)

/-- The first clause is the model's choice (log 2): a request that comes as a command does what its record
does in a lane. R22, R24, R32: the records of a served lane are executed in order after the cycle, each on
what the one before it left, up to the first Restart that finds the part in Setup and the reply queue
with room: it resets the part as the command does, and the rest of the lane is not read. -/
def Obligations.LaneRecordsRunInOrder : Prop :=
  (∀ (i : Instr) (s : State), (kindOf i).isSome →
    exec i s = .next { s with part := s.part.serveRecord i }) ∧
  (∀ (time : Nat) (frame : List Byte) (f : CycleFrame) (s : State),
    CycleFrame.ofBytes frame = some f → s.part.gateway.accepts f.cycle →
    let after (rs : List LaneRecord) : Part :=
      rs.foldl (fun p r => p.serveRecord r.command) ((s.part.advanceTo time).serveFrame f)
    let resets (before : List LaneRecord) (r : LaneRecord) : Prop :=
      (∃ tag, r.command = .restart tag) ∧ (after before).lane.mode = .setup ∧
      (after before).lane.queue.length < 32
    ((∀ before r rest, laneRecords f.lane = before ++ r :: rest → ¬ resets before r) →
      exec (.cycleFrame time frame) s = .next { s with part := after (laneRecords f.lane) }) ∧
    (∀ before r rest, laneRecords f.lane = before ++ r :: rest → resets before r →
      (∀ b q c, before = b ++ q :: c → ¬ resets b q) →
      exec (.cycleFrame time frame) s = exec r.command { s with part := after before }))

/-- R24: a request, a malformed or an unknown record that finds the reply queue full has no effect but
the dropped-request count, which saturates at 255. -/
def Obligations.FullQueueDropsRequests : Prop :=
  ∀ (i : Instr) (s : State),
    (kindOf i).isSome ∨ (∃ k t, i = .malformedRecord k t) ∨ (∃ k t, i = .unknownRecord k t) →
    32 ≤ s.part.lane.queue.length →
    exec i s = .next { s with part := { s.part with
      lane := { s.part.lane with dropped := min 255 (s.part.lane.dropped + 1) } } }

/-- R19, R20, R21, R23: a malformed record and an unknown one reserve a reply with the tag and kind byte as
read, answered BadRecord and Unknown without data, and do nothing else. Second, the conditions under
which a record is malformed, after which nothing of the lane is read; every other record ends where
its total length says, and is the request of its kind and tag, or, where its kind is none of the
catalogue's, an unknown record. -/
def Obligations.RecordsWithoutOwner : Prop :=
  (∀ (kind tag : Byte) (s : State), s.part.Room →
     exec (.malformedRecord kind tag) s =
       .next { s with part := s.part.pushRefusal kind tag .badRecord } ∧
     exec (.unknownRecord kind tag) s =
       .next { s with part := s.part.pushRefusal kind tag .unknown }) ∧
  (∀ lane : List Byte, lane ≠ [] →
     (let len := fieldNat lane 2 2
      let bad : Prop := lane.length < 4 ∨ len < 4 ∨ 480 < len ∨ lane.length < len ∨
        ∃ m, minLength (byteAt lane 0) = some m ∧ len < m
      (bad → laneRecords lane = [⟨byteAt lane 0, byteAt lane 1,
        .malformedRecord (byteAt lane 0) (byteAt lane 1)⟩]) ∧
      let kind := byteAt lane 0
      let tag := byteAt lane 1
      let known : Prop := (1 ≤ kind.toNat ∧ kind.toNat ≤ 3) ∨ (0x10 ≤ kind.toNat ∧ kind.toNat ≤ 0x12) ∨
        (0x20 ≤ kind.toNat ∧ kind.toNat ≤ 0x24) ∨ (0x30 ≤ kind.toNat ∧ kind.toNat ≤ 0x32) ∨
        (0x40 ≤ kind.toNat ∧ kind.toNat ≤ 0x44) ∨ kind.toNat = 0x50 ∨
        (0x60 ≤ kind.toNat ∧ kind.toNat ≤ 0x6A) ∨ (0x70 ≤ kind.toNat ∧ kind.toNat ≤ 0x77)
      (¬ bad → ∃ i : Instr, laneRecords lane = ⟨kind, tag, i⟩ :: laneRecords (lane.drop len) ∧
        (known → kindOf i = some kind ∧ tagOf i = tag) ∧
        (¬ known → i = .unknownRecord kind tag))))

/-- R22, R23, R26: a request that its owner answers with a refusal code has no effect but its reply, a
Ready entry with that code and no data at the tail of the queue. -/
def Obligations.RefusedRequestsChangeNothing : Prop :=
  ∀ (i : Instr) (k : Byte) (run : Nat → Part → Served) (a : Answer) (s : State),
    kindOf i = some k → ownerOf i = some run → s.part.Room →
    (run s.part.lane.nextTicket
      { s.part with lane := s.part.lane.reserve k (tagOf i) }).2 = some a →
    a.code.accepts = false →
    a.data = [] ∧ exec i s = .next { s with part := s.part.push k (tagOf i) a }

/-- Section 11.3 (the catalogue and the bodies), R19, R192: the record of a well-formed request, whatever follows
it in the lane, is read back as that request with its kind and tag. -/
def Obligations.RecordRoundTrip : Prop :=
  ∀ (i : Instr) (k : Byte) (rest : List Byte), i.wf = true → kindOf i = some k →
    firstRecord (encodeRecord i ++ rest) = (⟨k, tagOf i, i⟩, rest)

/-! ## The ring gateway (chapter 1) -/

/-- R1, R3: a cycle frame too short for its fixed part, or with a bad check, only raises the bad-frame count.
A late frame changes the late-frame count and the reply queue only; where the queue has room for all
its records, each is answered Late in its order, a malformed one BadRecord, and none is executed. The
model's choices: the time base stands at the arrival, or where it stood if that is later (log 4), and
an unknown record of a late lane is answered Late, not Unknown (log 15). -/
def Obligations.FramesNotServed : Prop :=
  (∀ (time : Nat) (frame : List Byte) (s : State),
     frame.length < 56 ∨ 1536 < frame.length ∨ checkGood frame = false →
     exec (.cycleFrame time frame) s = .next { s with part := { s.part with
       now := max s.part.now time
       gateway := { s.part.gateway with badCount := min 255 (s.part.gateway.badCount + 1) } } }) ∧
  (∀ (time : Nat) (frame : List Byte) (f : CycleFrame) (s : State),
     CycleFrame.ofBytes frame = some f → s.part.gateway.accepts f.cycle = false →
     ∃ l : ServiceLane,
       exec (.cycleFrame time frame) s = .next { s with part := { s.part with
         now := max s.part.now time
         gateway := { s.part.gateway with lateCount := min 255 (s.part.gateway.lateCount + 1) }
         lane := l } } ∧
       l.mode = s.part.lane.mode ∧
       (s.part.lane.queue.length + (laneRecords f.lane).length ≤ 32 →
         (∀ e ∈ s.part.lane.queue, e.ticket < s.part.lane.nextTicket) →
         l.dropped = s.part.lane.dropped ∧
         l.queue.map (fun e => (e.tag, e.kind, e.answer)) =
           s.part.lane.queue.map (fun e => (e.tag, e.kind, e.answer)) ++
           (laneRecords f.lane).map fun r => (r.tag, r.kind,
             some ⟨if Instr.isMalformed r.command then .badRecord else .late, []⟩)))

/-- R2, R4, R6, R10, R13: a served frame without requests sets N, clears the first-frame flag and the
controller-miss count, starts the timer at floor(5P/4), shifts the demand records, counts a drive frame
still outstanding as missed, and emits exactly one drive frame, which carries its number and becomes
the outstanding one, with the slots of R10 and R11. R39, R44 to R46, R50, R54, R89, R107, R112, R116 to
R120: the pending lens tables are in force; then the sequencer counts, the recorder's clock and the
player's step go on; then every channel and every lens channel stands as the step of the part so
reached leaves it (`Part.CycleSteps`): requests, shaped states, divergence, the end of a ramp. R54, R70,
R161, R178, R185: after the step the divergence check, the zone monitor's work (`LiveDataAges`), the
recorder's sample (`RecorderRequests`), the end of a ramp and the report of arrival to the player
(`PlayerRequests`) take place once each, and the whole part stands as they and the leaving of the drive
frame leave it. The model's choices: the frame is served at the larger of the time base and its arrival (log 4); the flags
in the slots are those after the zone tests and the divergence check (log 6); the recorder's clock
comes before the player's step (log 56), the divergence check before the zone tests (log 7); a lens
channel in Off is formed as in Direct (log 55). -/
def Obligations.ServedFrame : Prop :=
  ∀ (time : Nat) (frame : List Byte) (f : CycleFrame) (s : State),
    CycleFrame.ofBytes frame = some f → s.part.gateway.accepts f.cycle → f.lane = [] →
    (let gateway : Gateway := { s.part.gateway with
       cycle := f.cycle, firstFrame := false, controllerMiss := 0, servedTime := max s.part.now time
       timer := some (max s.part.now time + 5 * s.part.gateway.period / 4)
       demands := Vector.ofFn fun c : Slot =>
         ⟨(f.demands[c]).getD s.part.gateway.demands[c].last, s.part.gateway.demands[c].last⟩ }
     let begun : Part := { s.part with
       now := max s.part.now time, gateway := gateway, lens := s.part.lens.begun }
     ∃ (t : Part) (d : DriveFrame) (requests : Vector Int 12),
      exec (.cycleFrame time frame) s = .next { s with part := t } ∧
      begun.sequencerServing.recorderServing.playerServing.CycleSteps t requests ∧
      t.now = max s.part.now time ∧
      t.gateway.cycle = f.cycle ∧ t.gateway.firstFrame = false ∧ t.gateway.controllerMiss = 0 ∧
      t.gateway.servedTime = max s.part.now time ∧
      t.gateway.timer = some (max s.part.now time + 5 * s.part.gateway.period / 4) ∧
      t.gateway.period = s.part.gateway.period ∧ t.gateway.missLimit = s.part.gateway.missLimit ∧
      t.gateway.lateCount = s.part.gateway.lateCount ∧
      t.gateway.badCount = s.part.gateway.badCount ∧
      (∀ c : Slot, t.gateway.demands[c] =
        ⟨(f.demands[c]).getD s.part.gateway.demands[c].last, s.part.gateway.demands[c].last⟩) ∧
      t.portB = s.part.portB ++ [d] ∧ d.cycle = f.cycle ∧
      t.gateway.outstanding.map (·.cycle) = some f.cycle ∧
      s.part.MissSettled t ∧ s.part.EmitsSlots t d ∧
      t.lane.mode = s.part.lane.mode)

/-- R6, R7, R8, R10, R13: the expiry of the cycle timer serves a fill cycle: N + 1, the extrapolated demands,
the controller-miss count, the timer P later, a drive frame still outstanding counted as missed, one
drive frame; and at the miss limit Link joins the cause set. The channels and the lens channels stand after
it as in `ServedFrame` (`Part.CycleSteps`), and so do the zone monitor, the recorder and the player. The model's choices: it is served at the larger of the time
base and the expiry (log 4); the flags in the slots are those after the zone tests and the divergence
check (log 6); Link comes after the sequencer's timers and before the recorder's clock and the player's
step (log 8); and logs 7, 55 and 56 as in `ServedFrame`. -/
def Obligations.FillCycle : Prop :=
  ∀ (expiry : Nat) (s : State), s.part.gateway.timer = some expiry →
    (let gateway : Gateway := { s.part.gateway with
       cycle := s.part.gateway.cycle + 1
       controllerMiss := min 255 (s.part.gateway.controllerMiss + 1)
       servedTime := max s.part.now expiry
       timer := some (max s.part.now expiry + s.part.gateway.period)
       demands := Vector.ofFn fun c : Slot =>
         ⟨max (-2147483648) (min (s.part.gateway.demands[c].last +
             (s.part.gateway.demands[c].last - s.part.gateway.demands[c].before)) 2147483647),
           s.part.gateway.demands[c].last⟩ }
     let counted : Part := Part.sequencerServing { s.part with
       now := max s.part.now expiry, gateway := gateway, lens := s.part.lens.begun }
     let linked : Part := if s.part.gateway.missLimit ≤ gateway.controllerMiss then
       counted.post .link .ramp 0 else counted
     ∃ (t : Part) (d : DriveFrame) (requests : Vector Int 12),
      exec .fillCycle s = .next { s with part := t } ∧
      linked.recorderServing.playerServing.CycleSteps t requests ∧
      t.gateway.cycle = s.part.gateway.cycle + 1 ∧
      t.gateway.controllerMiss = min 255 (s.part.gateway.controllerMiss + 1) ∧
      t.gateway.servedTime = max s.part.now expiry ∧
      t.gateway.timer = some (max s.part.now expiry + s.part.gateway.period) ∧
      (∀ c : Slot, t.gateway.demands[c] =
        ⟨max (-2147483648) (min (s.part.gateway.demands[c].last +
            (s.part.gateway.demands[c].last - s.part.gateway.demands[c].before)) 2147483647),
          s.part.gateway.demands[c].last⟩) ∧
      t.portB = s.part.portB ++ [d] ∧ d.cycle = s.part.gateway.cycle + 1 ∧
      t.gateway.outstanding.map (·.cycle) = some (s.part.gateway.cycle + 1) ∧
      s.part.MissSettled t ∧ s.part.EmitsSlots t d ∧
      (s.part.gateway.missLimit ≤ min 255 (s.part.gateway.controllerMiss + 1) →
        t.seq.causes.getLsbD 7 = true ∧ t.seq.state ≠ .running))

/-- R11, R82, R83: in Setup every slot of the drive frame that a served frame emits carries the last actual
count as its setpoint, with torque enable and brake release clear. And, whatever a served cycle posts
on its way, a drive frame that carries torque enable on a motion slot leaves a part whose stop chain
output is closed, in Run, with that axis present; that the frame leaves after the cycle's zone tests
and divergence check is the model's choice (log 6). -/
def Obligations.DriveFrameFlags : Prop :=
  (∀ (time : Nat) (frame : List Byte) (f : CycleFrame) (s : State),
     CycleFrame.ofBytes frame = some f → s.part.gateway.accepts f.cycle → f.lane = [] →
     s.part.lane.mode = .setup →
     ∃ (t : Part) (d : DriveFrame),
       exec (.cycleFrame time frame) s = .next { s with part := t } ∧
       t.portB = s.part.portB ++ [d] ∧
       ∀ c : Slot, d.slots[c] = ⟨s.part.gateway.feedback[c].actual, false, false⟩) ∧
  (∀ (s t : State) (c : Instr) (d : DriveFrame),
     (c = .fillCycle ∨ ∃ time frame f, c = .cycleFrame time frame ∧
       CycleFrame.ofBytes frame = some f ∧ f.lane = []) →
     s.part.ChainLaw → exec c s = .next t → t.part.portB = s.part.portB ++ [d] →
     ∀ a : Axis, d.slots[Axis.slot a].torque = true →
       t.part.seq.chainClosed = true ∧ t.part.lane.mode = .run ∧
       t.part.shaper.axes[Axis.slot a].present = true)

/-- R12, R15 to R17: the drive frame of the outstanding cycle is taken: the outstanding frame becomes none, the
drive-miss count 0, each answered slot's feedback is recorded, each other slot goes stale and is
taken as not ready, and one return frame of that cycle leaves port A. It carries the counts, or for a
present lens channel in Map or Follow the physical value that its table gives; the replies that leave
from the head of the queue, where no array request of the lane could be turned away meanwhile; and the
status block, where no drive fault is posted after it. Any other drive frame is discarded: one with a
bad check or a wrong length, one whose number is not the outstanding frame's, and one that comes when
no drive frame is outstanding. -/
def Obligations.DriveFrameTaken : Prop :=
  (∀ (frame : List Byte) (o : Outstanding) (d : DriveReturn) (s : State),
     s.part.gateway.outstanding = some o → DriveReturn.ofBytes frame = some d → d.cycle = o.cycle →
     ∃ (t : Part) (r : ReturnFrame),
       exec (.driveFrameReturn frame) s = .next { s with part := t } ∧
       t.gateway = { s.part.gateway with
         outstanding := none
         driveMiss := 0
         feedback := Vector.ofFn fun c : Slot =>
           if d.slots[c].status.answered then ⟨d.slots[c].actual, d.slots[c].status, false⟩
           else ⟨s.part.gateway.feedback[c].actual, ⟨false, false, false, false, true⟩, true⟩ } ∧
       t.portA = s.part.portA ++ [r] ∧ r.cycle = o.cycle ∧
       (∀ c : Slot, r.stale[c] = !d.slots[c].status.answered) ∧
       (∀ a : Axis, r.values[Axis.slot a] = t.gateway.feedback[Axis.slot a].actual) ∧
       (∀ l : LensIx,
         let c := LensIx.slot l
         let lc := s.part.lens.chans[l]
         r.values[c] =
           if s.part.shaper.axes[c].present = true ∧ (lc.mode = .map ∨ lc.mode = .follow) then
             reverseMap lc.active t.gateway.feedback[c].actual
           else t.gateway.feedback[c].actual) ∧
       (s.part.array.laneJobs = [] ∨ s.part.array.scan ≠ none ∨
           (∃ j w, s.part.array.operation = some (.job j w)) →
         r.replies = (takeReplies 480 s.part.lane.queue).1 ∧
         t.lane.queue = (takeReplies 480 s.part.lane.queue).2) ∧
       ((∀ a : Axis, s.part.shaper.axes[Axis.slot a].present = true →
           d.slots[Axis.slot a].status.fault = false ∧ d.slots[Axis.slot a].status.answered = true) →
         r.status = t.statusBlock) ∧
       t.portB = s.part.portB ∧ t.now = s.part.now ∧ t.lane.mode = s.part.lane.mode) ∧
  (∀ (frame : List Byte) (s : State),
     (frame.length ≠ 152 ∨ checkGood frame = false ∨
       ∀ o, s.part.gateway.outstanding = some o → BitVec.ofNat 16 (fieldNat frame 0 2) ≠ o.cycle) →
     exec (.driveFrameReturn frame) s = .next s)

/-- R14: a taken drive frame in which a present motion drive reports fault, or does not answer, posts
DriveFault: the stop state is Safe-Off. R53: it also makes the following check of every present slot
that answered, against the setpoint and the torque enable flag of the frame; a channel whose run then
stands at its limit, on an exceeding cycle, posts Following, Ramp, the lowest slot first, which takes
Running to Ramping. -/
def Obligations.DriveFaultStops : Prop :=
  (∀ (frame : List Byte) (o : Outstanding) (d : DriveReturn) (a : Axis) (s : State),
     s.part.gateway.outstanding = some o → DriveReturn.ofBytes frame = some d → d.cycle = o.cycle →
     s.part.shaper.axes[Axis.slot a].present = true →
     (d.slots[Axis.slot a].status.fault = true ∨ d.slots[Axis.slot a].status.answered = false) →
     ∃ t : Part, exec (.driveFrameReturn frame) s = .next { s with part := t } ∧
       t.seq.state = .safeOff ∧ t.seq.causes.getLsbD 5 = true ∧ t.seq.firstCause.isSome) ∧
  (∀ (frame : List Byte) (o : Outstanding) (d : DriveReturn) (s : State),
     s.part.gateway.outstanding = some o → DriveReturn.ofBytes frame = some d → d.cycle = o.cycle →
     (let ax (c : Slot) := s.part.shaper.axes[c]
      let old (c : Slot) : Nat := s.part.shaper.chans[c].followRun
      let exceeds (c : Slot) : Prop := o.torque[c] = true ∧ (ax c).following ≠ 0 ∧
        (ax c).following < (d.slots[c].actual - o.setpoints[c]).natAbs
      let posts (c : Slot) : Prop := (ax c).present = true ∧ d.slots[c].status.answered = true ∧
        exceeds c ∧ (ax c).followCount ≤ min (ax c).followCount (old c + 1)
      let sound : Prop := ∀ a : Axis, (ax (Axis.slot a)).present = true →
        d.slots[Axis.slot a].status.fault = false ∧ d.slots[Axis.slot a].status.answered = true
      ∃ t : Part, exec (.driveFrameReturn frame) s = .next { s with part := t } ∧
        (∀ c : Slot,
          ((ax c).present = false ∨ d.slots[c].status.answered = false →
            t.shaper.chans[c].followRun = old c) ∧
          ((ax c).present = true → d.slots[c].status.answered = true → exceeds c →
            t.shaper.chans[c].followRun = min (ax c).followCount (old c + 1)) ∧
          ((ax c).present = true → d.slots[c].status.answered = true → ¬ exceeds c →
            t.shaper.chans[c].followRun = 0)) ∧
        (∀ c : Slot, posts c → (∀ b : Slot, b.val < c.val → ¬ posts b) →
          t.seq.causes.getLsbD 4 = true ∧
          t.seq.firstCause = some (s.part.seq.firstCause.getD ⟨.following, c.val⟩) ∧
          (sound → s.part.seq.state = .running →
            t.seq.state = .ramping ∧ t.seq.category = .ramp)) ∧
        ((∀ c : Slot, ¬ posts c) →
          t.seq.causes.getLsbD 4 = s.part.seq.causes.getLsbD 4 ∧
          (sound → s.part.seq.state = .running → t.seq = s.part.seq))))

/-- R16, R25: replies leave from the head of the queue. Those taken are a run of Ready entries in queue
order that fits the room, the rest stays as it was, and its head is Waiting or does not fit. Sections
11.1 and 11.2, R17, R191: a drive frame is 152 bytes, a status block 48 and a return frame 106 plus its
replies, of at most 480 bytes where the replies came from `takeReplies`; and a frame with its check
appended has a good check. -/
def Obligations.RepliesLeaveFromTheHead : Prop :=
  (∀ (room : Nat) (q : List ReplyEntry),
    ∃ taken : List ReplyEntry,
      q = taken ++ (takeReplies room q).2 ∧
      taken.map (fun e => (e.tag, e.kind, e.answer)) =
        (takeReplies room q).1.map (fun r => (r.tag, r.kind, some r.answer)) ∧
      ((takeReplies room q).1.map SentReply.size).sum ≤ room ∧
      (∀ e rest, (takeReplies room q).2 = e :: rest →
        e.answer = none ∨ ∃ a, e.answer = some a ∧
          room < ((takeReplies room q).1.map SentReply.size).sum + (6 + a.data.length))) ∧
  (∀ f : DriveFrame, f.bytes.length = 152 ∧ checkGood f.bytes = true) ∧
  (∀ b : StatusBlock, b.bytes.length = 48) ∧
  (∀ f : ReturnFrame,
    f.bytes.length = 106 + (f.replies.map SentReply.size).sum ∧ checkGood f.bytes = true) ∧
  (∀ q : List ReplyEntry, ((takeReplies replyRoom q).1.map SentReply.size).sum ≤ 480)

/-- R18, R33, R55, R79, R105, R121, R132, R157, R171, R190: a reset sets every block to its reset values
and the lines as they stand; the array's bytes change only where an operation was cut short (log
11): every other byte reads as before (R157), and a bay whose erase was cut short has no marker (R133).
The frames that have left the ports have left. So the reply queue is empty, the part mode
Setup, the dropped-request count 0, the stop state Safe-Off with Start its first and only cause, the
stop chain output open and readiness not seen. R32: a Restart in Setup that finds room causes the same
reset as the Reset line, with the lines as they stand (log 9); in Run it is refused WrongMode. -/
def Obligations.ResetReachesEveryBlock : Prop :=
  (∀ (eStop guard : Bool) (s : State), ∃ m : ArrayMemory,
     exec (.reset eStop guard) s = .next { s with part :=
       { now := s.part.now, gateway := Gateway.reset, lane := ServiceLane.reset,
         shaper := Shaper.reset, zone := ZoneMonitor.reset, seq := Sequencer.reset eStop guard,
         lens := LensMapper.reset, sync := SyncUnit.reset, array := TakeArray.reset m,
         recorder := Recorder.reset, player := Player.reset, portA := s.part.portA,
         portB := s.part.portB, freeCount := s.part.freeCount + 67108864 } } ∧
     (s.part.array.operation = none → s.part.array.suspended = none → m = s.part.array.memory) ∧
     (∀ x : Nat, ¬ s.part.array.Cut x → m.read x = s.part.array.memory.read x) ∧
     (s.part.array.memory.wf = true → ∀ bay : Bay,
       s.part.array.operation = some (.erase bay) ∨ s.part.array.suspended = some bay →
       m.read (bay.val * 65536) ≠ 0xA5#8)) ∧
  (∀ (eStop guard : Bool) (s t : State), exec (.reset eStop guard) s = .next t →
     t.part.lane.queue = [] ∧ t.part.lane.mode = .setup ∧ t.part.lane.dropped = 0 ∧
     t.part.seq.state = .safeOff ∧ t.part.seq.category = .none ∧
     t.part.seq.firstCause = some ⟨.start, 0⟩ ∧ t.part.seq.causes = 0x4000#16 ∧
     t.part.seq.chainClosed = false ∧ t.part.seq.eStopOpen = eStop ∧
     t.part.seq.guardOpen = guard ∧ t.part.seq.readiness = false ∧ t.part.seq.phaseCount = 0) ∧
  (∀ (tag : Byte) (s : State), s.part.Room →
    (s.part.lane.mode = .setup → ∃ t : State, exec (.restart tag) s = .next t ∧
      exec (.reset s.part.seq.eStopOpen s.part.seq.guardOpen) s = .next t ∧
      t.part.lane.queue = [] ∧ t.part.lane.mode = .setup ∧ t.part.gateway.firstFrame = true) ∧
    (s.part.lane.mode = .run → exec (.restart tag) s =
      .next { s with part := s.part.pushRefusal 0x03#8 tag .wrongMode }))

/-- R9, R131: Gateway Set and Sync Set; the preset flag is bit 0 of its byte (log 16). -/
def Obligations.SettingsResult : Prop :=
  (∀ (tag : Byte) (period missLimit : Nat) (s : State), s.part.Room →
     exec (.gatewaySet tag period missLimit) s = .next { s with part :=
       (if s.part.lane.mode = .run then s.part.pushRefusal 0x01#8 tag .wrongMode
       else if period < 250 ∨ 4000 < period ∨ missLimit < 1 ∨ 8 < missLimit then
         s.part.pushRefusal 0x01#8 tag .range
       else Part.pushDone { s.part with
         gateway := { s.part.gateway with period := period, missLimit := missLimit } } 0x01#8 tag) }) ∧
  (∀ (tag : Byte) (weight preset value : Nat) (s : State), s.part.Room →
     (let taking : Prop := s.part.recorder.state = .armed ∨ s.part.recorder.state = .recording ∨
        s.part.recorder.state = .stalled
      (255 < weight → exec (.syncSet tag weight preset value) s =
        .next { s with part := s.part.pushRefusal 0x50#8 tag .range }) ∧
      (weight ≤ 255 → preset % 2 = 1 → taking → exec (.syncSet tag weight preset value) s =
        .next { s with part := s.part.pushRefusal 0x50#8 tag .busy }) ∧
      (weight ≤ 255 → preset % 2 = 1 → ¬ taking →
        exec (.syncSet tag weight preset value) s = .next { s with part := (Part.pushDone { s.part with
          sync := { s.part.sync with
            weight := weight, frameCount := BitVec.ofNat 32 value } } 0x50#8 tag) }) ∧
      (weight ≤ 255 → preset % 2 = 0 →
        exec (.syncSet tag weight preset value) s = .next { s with part := (Part.pushDone { s.part with
          sync := { s.part.sync with weight := weight } } 0x50#8 tag) })))

/-! ## The part mode, the axis table and the sources (sections 2.5, 3.1, 3.2) -/

/-- R28 to R30: what refuses a Mode request, and the mode already in force. R29, R42: a Mode request for Run in
Setup after the scan is Blocked unless a motion axis is present, every present channel was set, and
every present channel's feedback is fresh and inside its axis window. Accepted, it changes the part
mode and the lens channels alone: a present lens channel whose mode is not Off takes up its state on
Live, and its last demand is the taken-up count, as a count in Direct and as its reverse map in Map and
Follow (R118); that the pending table, where there is one, gives that map is the model's choice
(log 27). -/
def Obligations.ModeRunResult : Prop :=
  (∀ (tag : Byte) (want : Nat) (s : State), s.part.Room →
     (1 < want →
       exec (.mode tag want) s = .next { s with part := s.part.pushRefusal 0x02#8 tag .range }) ∧
     (want = 1 → s.part.array.scanComplete = false →
       exec (.mode tag want) s = .next { s with part := s.part.pushRefusal 0x02#8 tag .busy }) ∧
     (want = s.part.lane.mode.code → (want = 1 → s.part.array.scanComplete = true) →
       exec (.mode tag want) s = .next { s with part := s.part.pushDone 0x02#8 tag }) ∧
     (want = 0 → s.part.lane.mode = .run → s.part.seq.state ≠ .safeOff →
       exec (.mode tag want) s = .next { s with part := s.part.pushRefusal 0x02#8 tag .wrongState })) ∧
  (∀ (tag : Byte) (s : State), s.part.Room → s.part.lane.mode = .setup →
     s.part.array.scanComplete = true →
     (let ok : Prop := (∃ a : Axis, s.part.shaper.axes[Axis.slot a].present = true) ∧
        ∀ c : Slot, s.part.shaper.axes[c].present = true →
          s.part.shaper.axes[c].set = true ∧ s.part.gateway.feedback[c].stale = false ∧
          s.part.shaper.axes[c].pmin ≤ s.part.gateway.feedback[c].actual ∧
          s.part.gateway.feedback[c].actual ≤ s.part.shaper.axes[c].pmax
      (¬ ok → exec (.mode tag 1) s =
        .next { s with part := s.part.pushRefusal 0x02#8 tag .blocked }) ∧
      (ok → ∃ (chans : Vector Channel 12) (lens : Vector LensChannel 4),
        exec (.mode tag 1) s = .next { s with part := (Part.pushDone { s.part with
          lane := { s.part.lane with mode := .run }
          shaper := { s.part.shaper with chans := chans }
          lens := { s.part.lens with chans := lens } } 0x02#8 tag) } ∧
        (∀ a : Axis, chans[Axis.slot a] = s.part.shaper.chans[Axis.slot a]) ∧
        ∀ l : LensIx,
          let c := LensIx.slot l
          let w := s.part.window c
          if s.part.shaper.axes[c].present = true ∧ s.part.lens.chans[l].mode ≠ .off then
            chans[c] = { s.part.shaper.chans[c] with
              source := .live, v := 0
              p := clamp (s.part.gateway.feedback[c].actual * 65536) (w.1 * 65536) (w.2 * 65536) } ∧
            (let lc := s.part.lens.chans[l]
             lens[l] = { lc with
               lastDemand := if lc.mode = .direct then countOf chans[c].p
                 else reverseMap (lc.pending.getD lc.active) (countOf chans[c].p) })
          else chans[c] = s.part.shaper.chans[c] ∧ lens[l] = s.part.lens.chans[l])))

/-- R30, R31, R42, R185: an accepted Mode request for Setup puts every channel on Track, withdraws the player's
reads (a read in progress goes on and is marked, any other operation stays as it is), hands every
part-owned cue back (Aborted for the current cue, NotRun for the others) and stops the player, whose
pointer stays. -/
def Obligations.ModeSetupResult : Prop :=
  ∀ (tag : Byte) (s : State), s.part.Room → s.part.lane.mode = .run → s.part.seq.state = .safeOff →
    ∃ (chans : Vector Channel 12) (p : Player),
      exec (.mode tag 0) s = .next { s with part := (Part.pushDone { s.part with
        lane := { s.part.lane with mode := .setup }
        shaper := { s.part.shaper with chans := chans }
        array := { s.part.array with
          playerJobs := []
          operation := (match s.part.array.operation with
            | some (.job (.playerRead i k) _) => some (.job (.playerRead i k) true)
            | other => other) }
        player := p } 0x02#8 tag) } ∧
      (∀ c : Slot, chans[c] = { s.part.shaper.chans[c] with source := .track }) ∧
      p.state = .stopped ∧ p.pointer = s.part.player.pointer ∧ p.prefetch = [] ∧
      ∀ i : CueIx, p.cues[i] =
        if s.part.player.cues[i].owner = .controller then s.part.player.cues[i]
        else { s.part.player.cues[i] with
          owner := .controller
          status := (if i = s.part.player.pointer ∧ s.part.player.state.inHand then .aborted
                     else .notRun) }

/-- R34: an Axis Set for a channel slot with a field out of its range is refused Range in either mode; in Setup
any other replaces the slot's record whole, its set field yes, and nothing else changes. That a present
or brake present byte above 1 is out of range is the model's choice (log 28). For the stop timing
record: Range for a field out of its range, WrongMode in Run, and in Setup the record replaced
whole; a target above 12 is Range. -/
def Obligations.AxisSetInSetup : Prop :=
  (∀ (tag : Byte) (c : Slot) (f : AxisFields) (s : State), s.part.Room →
     (let reach : Int := if c.val < 8 then 2147483647 else 8388607
      let least : Int := if c.val < 8 then -2147483648 else -8388607
      let ok : Prop := f.present ≤ 1 ∧ f.brakePresent ≤ 1 ∧ f.confirm ≤ 2 ∧
        (8 ≤ c.val → f.kind = 2 ∧ f.brakePresent = 0) ∧ (c.val = 0 ∨ c.val = 3 → f.kind = 0) ∧
        (c.val = 7 → f.kind ≤ 1) ∧ (c.val = 1 ∨ c.val = 2 ∨ (4 ≤ c.val ∧ c.val ≤ 6) → f.kind = 1) ∧
        least ≤ f.pmin ∧ f.pmin < f.pmax ∧ f.pmax ≤ reach ∧
        1 ≤ f.vmax ∧ f.vmax ≤ 67108864 ∧ 1 ≤ f.amax ∧ f.amax ≤ f.astop ∧ f.astop ≤ 16777216 ∧
        f.following ≤ 16777216 ∧ 1 ≤ f.followCount ∧ f.followCount ≤ 16 ∧
        f.divergence ≤ 16777216 ∧ f.still ≤ 65535
      (¬ ok → exec (.axisSet tag c.val (.channel f)) s =
        .next { s with part := s.part.pushRefusal 0x10#8 tag .range }) ∧
      (ok → s.part.lane.mode = .setup → ∃ a : AxisRecord,
        exec (.axisSet tag c.val (.channel f)) s = .next { s with part := (Part.pushDone { s.part with
          shaper := { s.part.shaper with axes := s.part.shaper.axes.set c a } } 0x10#8 tag) } ∧
        a.set = true ∧ a.present = (f.present == 1) ∧ a.kind.code = f.kind ∧
        a.brakePresent = (f.brakePresent == 1) ∧ a.confirm.code = f.confirm ∧
        a.pmin = f.pmin ∧ a.pmax = f.pmax ∧ a.vmax = f.vmax ∧ a.amax = f.amax ∧ a.astop = f.astop ∧
        a.following = f.following ∧ a.followCount = f.followCount ∧
        a.divergence = f.divergence ∧ a.still = f.still))) ∧
  (∀ (tag : Byte) (f : TimingFields) (s : State), s.part.Room →
     (let ok : Prop := 1 ≤ f.stillDwell ∧ f.stillDwell ≤ 255 ∧ f.stillMask ≤ 255 ∧ f.brakeMask ≤ 255 ∧
        1 ≤ f.stillTimeout ∧ f.stillTimeout ≤ 65535 ∧ 1 ≤ f.brakeTimer ∧ f.brakeTimer ≤ 4095 ∧
        1 ≤ f.brakeTimeout ∧ f.brakeTimeout ≤ 65535 ∧
        1 ≤ f.armingTimeout ∧ f.armingTimeout ≤ 65535
      (¬ ok → exec (.axisSet tag 12 (.timing f)) s =
        .next { s with part := s.part.pushRefusal 0x10#8 tag .range }) ∧
      (ok → s.part.lane.mode = .run → exec (.axisSet tag 12 (.timing f)) s =
        .next { s with part := s.part.pushRefusal 0x10#8 tag .wrongMode }) ∧
      (ok → s.part.lane.mode = .setup →
        exec (.axisSet tag 12 (.timing f)) s = .next { s with part := (Part.pushDone { s.part with
          shaper := { s.part.shaper with timing := (
            { stillDwell := f.stillDwell, stillMask := f.stillMask, stillTimeout := f.stillTimeout,
              brakeMask := f.brakeMask, brakeTimer := f.brakeTimer, brakeTimeout := f.brakeTimeout,
              armingTimeout := f.armingTimeout } : StopTiming) } } 0x10#8 tag) }) ∧
      (∀ (target : Nat) (record : AxisSetRecord), 12 < target →
        exec (.axisSet tag target record) s =
          .next { s with part := s.part.pushRefusal 0x10#8 tag .range })))

/-- R35, R36: in Run, a record in its ranges that is less strict in a field is refused WrongMode; one that
is as strict but, for a present channel, leaves the shaped position or the stopping extent at the
new Amax outside the new window is refused Unreachable; any other replaces the record. -/
def Obligations.AxisSetInRunOnlyTightens : Prop :=
  ∀ (tag : Byte) (c : Slot) (f : AxisFields) (a : AxisRecord) (s : State), s.part.Room →
    s.part.lane.mode = .run → AxisFields.toRecord f c = some a →
    (let old := s.part.shaper.axes[c]
     let ch := s.part.shaper.chans[c]
     let strict : Prop := a.present = old.present ∧ a.kind = old.kind ∧
       a.brakePresent = old.brakePresent ∧ a.confirm = old.confirm ∧ a.still = old.still ∧
       old.pmin ≤ a.pmin ∧ a.pmax ≤ old.pmax ∧ a.vmax ≤ old.vmax ∧ a.amax ≤ old.amax ∧
       old.astop ≤ a.astop ∧
       (old.following = 0 ∨ (a.following ≠ 0 ∧ a.following ≤ old.following)) ∧
       (old.divergence = 0 ∨ (a.divergence ≠ 0 ∧ a.divergence ≤ old.divergence)) ∧
       a.followCount ≤ old.followCount
     let reachable : Prop := a.present = true → ch.InWindow (a.pmin * 65536, a.pmax * 65536) a.amax
     (¬ strict → exec (.axisSet tag c.val (.channel f)) s =
       .next { s with part := s.part.pushRefusal 0x10#8 tag .wrongMode }) ∧
     (strict → ¬ reachable → exec (.axisSet tag c.val (.channel f)) s =
       .next { s with part := s.part.pushRefusal 0x10#8 tag .unreachable }) ∧
     (strict → reachable →
       exec (.axisSet tag c.val (.channel f)) s = .next { s with part := (Part.pushDone { s.part with
         shaper := { s.part.shaper with axes := s.part.shaper.axes.set c a } } 0x10#8 tag) }))

/-- R43: Source Live. A mask bit 12 to 15 names a slot that does not exist and is refused with the absent
ones (R192). -/
def Obligations.SourceLiveResult : Prop :=
  ∀ (tag : Byte) (mask : BitVec 16) (s : State), s.part.Room →
    (let absent : Prop := 4096 ≤ mask.toNat ∨
       ∃ c : Slot, mask.getLsbD c.val = true ∧ s.part.shaper.axes[c].present = false
     let held : Prop :=
       (∃ c : Slot, mask.getLsbD c.val = true ∧ (s.part.shaper.chans[c].source = .take ∨
         s.part.shaper.chans[c].source = .stop ∨ s.part.shaper.chans[c].source = .track)) ∨
       (s.part.seq.state ≠ .running ∧ ∃ a : Axis, mask.getLsbD a.val = true)
     (s.part.lane.mode = .setup → exec (.sourceLive tag mask) s =
       .next { s with part := s.part.pushRefusal 0x12#8 tag .wrongMode }) ∧
     (s.part.lane.mode = .run → absent → exec (.sourceLive tag mask) s =
       .next { s with part := s.part.pushRefusal 0x12#8 tag .range }) ∧
     (s.part.lane.mode = .run → ¬ absent → held → exec (.sourceLive tag mask) s =
       .next { s with part := s.part.pushRefusal 0x12#8 tag .wrongState }) ∧
     (s.part.lane.mode = .run → ¬ absent → ¬ held →
       exec (.sourceLive tag mask) s = .next { s with part := (Part.pushDone { s.part with
         shaper := { s.part.shaper with chans := (Vector.ofFn fun c : Slot =>
           if mask.getLsbD c.val = true ∧ s.part.shaper.chans[c].source = .parked then
             { s.part.shaper.chans[c] with source := .live }
           else s.part.shaper.chans[c]) } } 0x12#8 tag) }))

/-- R37, R69, R113, R147, R174: the reads answer Done with the item as held, in either part mode, and change
nothing; a number outside the item's range is refused Range, and a Directory Read during the scan
Busy. A Lens Table Read's data carries choice, point count, entry count, the written flags and then each
entry's physical value and count. The last five clauses lay the other data out as section 11.3 does; that a Directory Read leaves out the
two fields of R146 to which that layout gives no place is the model's reading (log 49), and that of a
count past 32 bits the low 32 are sent its choice (log 50). What an unused index of an active lens
table holds is a free value (log 17), and so is the point count of Staging. -/
def Obligations.ReadsAnswerAndChangeNothing : Prop :=
  (∀ (tag : Byte) (n : Nat) (s : State), s.part.Room →
     (∀ c : Slot, exec (.axisRead tag c.val) s = .next { s with part := (s.part.push 0x11#8 tag
       ⟨.done, [byteOf c.val, 0, 0, 0] ++ s.part.shaper.axes[c].bytes ++
         [if s.part.shaper.axes[c].set then 1 else 0]⟩) }) ∧
     (∃ b : Byte, exec (.axisRead tag 12) s = .next { s with part := (s.part.push 0x11#8 tag
       ⟨.done, [12, 0, 0, 0] ++ s.part.shaper.timing.bytes ++ [b]⟩) }) ∧
     (12 < n → exec (.axisRead tag n) s =
       .next { s with part := s.part.pushRefusal 0x11#8 tag .range }) ∧
     (∀ i : ZoneIx, exec (.zoneRead tag i.val) s =
       .next { s with part := s.part.push 0x24#8 tag ⟨.done, s.part.zone.readBytes i⟩ }) ∧
     (16 ≤ n → exec (.zoneRead tag n) s =
       .next { s with part := s.part.pushRefusal 0x24#8 tag .range }) ∧
     (s.part.array.scanComplete = true → ∀ i : DirIx, exec (.directoryRead tag i.val) s =
       .next { s with part :=
         (s.part.push 0x66#8 tag ⟨.done, s.part.array.directory[i].readBytes i⟩) }) ∧
     (s.part.array.scanComplete = false → n < 64 → exec (.directoryRead tag n) s =
       .next { s with part := s.part.pushRefusal 0x66#8 tag .busy }) ∧
     (64 ≤ n → exec (.directoryRead tag n) s =
       .next { s with part := s.part.pushRefusal 0x66#8 tag .range }) ∧
     (∀ i : CueIx, exec (.cueRead tag i.val) s =
       .next { s with part := s.part.push 0x71#8 tag ⟨.done, s.part.player.cues[i].readBytes i⟩ }) ∧
     (16 ≤ n → exec (.cueRead tag n) s =
       .next { s with part := s.part.pushRefusal 0x71#8 tag .range })) ∧
  (∀ (tag : Byte) (f : TableReadFields) (s : State), s.part.Room →
     (let ok : Prop := 8 ≤ f.channel ∧ f.channel ≤ 11 ∧ f.choice ≤ 1 ∧ f.start ≤ 63 ∧
        1 ≤ f.count ∧ f.count ≤ 32
      (¬ ok → exec (.lensTableRead tag f) s =
        .next { s with part := s.part.pushRefusal 0x43#8 tag .range }) ∧
      (ok → ∃ (l : LensIx) (n : Byte) (es : List StagingEntry), f.channel = l.val + 8 ∧
        exec (.lensTableRead tag f) s = .next { s with part := (s.part.push 0x43#8 tag
          ⟨.done, tableReadBytes f.choice n es⟩) } ∧
        es.length = f.count ∧
        (let d := tableReadBytes f.choice n es
         d.length = 8 + 8 * f.count ∧ byteAt d 0 = byteOf f.choice ∧ byteAt d 1 = n ∧
         byteAt d 2 = byteOf f.count ∧
         ∀ (k : Nat) (e : StagingEntry), es[k]? = some e →
           (BitVec.ofNat 32 (fieldNat d 4 4)).getLsbD k = e.written ∧
           bytesAt d (8 + 8 * k) 4 = leBytes 4 e.phys ∧
           bytesAt d (12 + 8 * k) 4 = leBytesInt 4 e.count) ∧
        (f.choice = 0 →
          let t := s.part.lens.chans[l].pending.getD s.part.lens.chans[l].active
          n = byteOf t.length ∧
          ∀ k < f.count, match t[f.start + k]? with
            | some p => es[k]? = some ⟨p.phys, p.count, true⟩
            | none => (es[k]?).map (·.written) = some false) ∧
        (f.choice = 1 → ∀ (k : Nat) (i : Fin 64), k < f.count → i.val = (f.start + k) % 64 →
          es[k]? = some s.part.lens.chans[l].staging[i])))) ∧
  (∀ a : AxisRecord, a.bytes.length = 36 ∧
     byteAt a.bytes 0 = flagByte a.present ∧ byteAt a.bytes 1 = byteOf a.kind.code ∧
     byteAt a.bytes 2 = flagByte a.brakePresent ∧ byteAt a.bytes 3 = byteOf a.confirm.code ∧
     bytesAt a.bytes 4 4 = leBytesInt 4 a.pmin ∧ bytesAt a.bytes 8 4 = leBytesInt 4 a.pmax ∧
     bytesAt a.bytes 12 4 = leBytes 4 a.vmax ∧ bytesAt a.bytes 16 4 = leBytes 4 a.amax ∧
     bytesAt a.bytes 20 4 = leBytes 4 a.astop ∧ bytesAt a.bytes 24 4 = leBytes 4 a.following ∧
     byteAt a.bytes 28 = byteOf a.followCount ∧ bytesAt a.bytes 30 2 = leBytes 2 a.still ∧
     bytesAt a.bytes 32 4 = leBytes 4 a.divergence) ∧
  (∀ u : StopTiming, u.bytes.length = 36 ∧
     byteAt u.bytes 0 = byteOf u.stillDwell ∧ byteAt u.bytes 1 = byteOf u.stillMask ∧
     byteAt u.bytes 2 = byteOf u.brakeMask ∧ bytesAt u.bytes 4 2 = leBytes 2 u.stillTimeout ∧
     bytesAt u.bytes 6 2 = leBytes 2 u.brakeTimer ∧ bytesAt u.bytes 8 2 = leBytes 2 u.brakeTimeout ∧
     bytesAt u.bytes 10 2 = leBytes 2 u.armingTimeout) ∧
  (∀ (m : ZoneMonitor) (i : ZoneIx),
     let d := m.readBytes i
     let z := m.zones[i]
     d.length = 93 ∧ byteAt d 0 = byteOf i.val ∧ byteAt d 1 = byteOf z.state.code ∧
     byteAt d 2 = byteOf z.kind.code ∧
     (z.state = .unused ∨ z.kind ≠ .slow → byteAt d 3 = byteOf z.response.code) ∧
     bytesAt d 4 24 = leBytesInt 4 z.box.xmin ++ leBytesInt 4 z.box.xmax ++ leBytesInt 4 z.box.ymin ++
       leBytesInt 4 z.box.ymax ++ leBytesInt 4 z.box.zmin ++ leBytesInt 4 z.box.zmax ∧
     bytesAt d 28 4 = leBytes 4 z.margin ∧
     (z.state = .unused ∨ z.kind = .slow → bytesAt d 32 2 = leBytes 2 z.scale) ∧
     bytesAt d 34 2 = leBytes 2 z.refresh ∧ bytesAt d 36 2 = leBytes 2 z.growth ∧
     bytesAt d 40 4 = leBytes 4 z.age ∧ bytesAt d 44 24 = boxBytes z.effective ∧
     bytesAt d 68 12 = pointBytes m.currentTip ∧ bytesAt d 80 12 = pointBytes m.stopTip ∧
     (byteAt d 92).getLsbD 0 = m.currentHits.getLsbD i.val ∧
     (byteAt d 92).getLsbD 1 = m.stopHits.getLsbD i.val) ∧
  (∀ (c : Cue) (i : CueIx),
     let d := c.readBytes i
     d.length = 24 ∧ byteAt d 0 = byteOf i.val ∧
     (byteAt d 1).getLsbD 0 = decide (c.owner = .part) ∧ (byteAt d 1).getLsbD 1 = c.lock ∧
     (byteAt d 1).getLsbD 2 = c.recordWith ∧ (byteAt d 1).getLsbD 3 = c.endIx.isNone ∧
     byteAt d 2 = byteOf c.slot.val ∧ byteAt d 3 = byteOf c.trigger.code ∧
     bytesAt d 4 4 = leBytes 4 c.start ∧ (∀ e, c.endIx = some e → bytesAt d 8 4 = leBytes 4 e) ∧
     bytesAt d 12 2 = leBytes 2 c.speed ∧ bytesAt d 14 2 = leBytes 2 c.mask.toNat ∧
     byteAt d 16 = byteOf c.status.code ∧ bytesAt d 20 4 = leBytes 4 c.startFrame.toNat) ∧
  (∀ (r : DirectorySlot) (i : DirIx),
     let d := r.readBytes i
     d.length = 40 ∧ byteAt d 0 = byteOf i.val ∧ byteAt d 1 = byteOf r.state.code ∧
     byteAt d 2 = byteOf r.endReason.code ∧ (byteAt d 3).getLsbD 0 = r.locked ∧
     (byteAt d 3).getLsbD 1 = r.lockPending ∧ bytesAt d 4 4 = leBytes 4 r.info.serial.toNat ∧
     bytesAt d 8 2 = leBytes 2 r.info.mask.toNat ∧ byteAt d 10 = byteOf r.info.divisor ∧
     (∀ l : LensIx, byteAt d (12 + l.val) = byteOf r.info.modes[l].code) ∧
     bytesAt d 16 4 = leBytes 4 r.info.startFrame.toNat ∧
     bytesAt d 20 2 = leBytes 2 r.bays.length ∧ bytesAt d 24 4 = leBytes 4 r.dataPages ∧
     bytesAt d 28 4 = leBytes 4 r.samples ∧ bytesAt d 32 4 = leBytes 4 r.marks ∧
     bytesAt d 36 4 = leBytes 4 r.gaps)

/-! ## Geometry and zones (chapter 4) -/

/-- R56, R66: Geometry Set and Zone Clear. R57, R58: the table gives the entries listed, rises from 0 to
65,536 and lies on its circle (the squares of opposite entries sum to 2^32 within their rounding); and
the sine and the cosine of an angle are interpolated from it by the six steps of R58. R59: how M rounds. -/
def Obligations.GeometryAndZoneClear : Prop :=
  (∀ (tag : Byte) (g : GeometryFields) (s : State), s.part.Room →
     (let ok : Prop := g.lb ≤ 16777216 ∧ -268435455 ≤ g.x0 ∧ g.x0 ≤ 268435455 ∧
        -268435455 ≤ g.y0 ∧ g.y0 ≤ 268435455 ∧ -268435455 ≤ g.z0 ∧ g.z0 ≤ 268435455
      (s.part.lane.mode = .run → exec (.geometrySet tag g) s =
        .next { s with part := s.part.pushRefusal 0x20#8 tag .wrongMode }) ∧
      (s.part.lane.mode = .setup → ¬ ok → exec (.geometrySet tag g) s =
        .next { s with part := s.part.pushRefusal 0x20#8 tag .range }) ∧
      (s.part.lane.mode = .setup → ok →
        exec (.geometrySet tag g) s = .next { s with part := (Part.pushDone { s.part with
          zone := { s.part.zone with
            geometry := ⟨g.lb, g.x0, g.y0, g.z0, g.swing, g.lift⟩ } } 0x20#8 tag) }))) ∧
  (∀ (tag : Byte) (s : State), s.part.Room →
     (∀ n : Nat, 16 ≤ n → exec (.zoneClear tag n) s =
       .next { s with part := s.part.pushRefusal 0x22#8 tag .range }) ∧
     (∀ i : ZoneIx, s.part.lane.mode = .run → exec (.zoneClear tag i.val) s =
       .next { s with part := s.part.pushRefusal 0x22#8 tag .wrongMode }) ∧
     (∀ i : ZoneIx, s.part.lane.mode = .setup → ∃ (current stop : BitVec 16) (sigma : Nat),
       exec (.zoneClear tag i.val) s = .next { s with part :=
         ((s.part.withZone i
           { state := .unused, kind := .keepOut, box := ⟨0, 0, 0, 0, 0, 0⟩, margin := 0,
             response := .hold, scale := 4095, refresh := 1, growth := 0, age := 0,
             effective := ⟨0, 0, 0, 0, 0, 0⟩ } current stop sigma).pushDone 0x22#8 tag) } ∧
       (s.part.withZone i ZoneEntry.reset current stop sigma).MasksAgree)) ∧
  ([(0, 0), (256, 25080), (427, 39922), (428, 40002), (512, 46341), (596, 51911), (597, 51973),
    (768, 60547), (1024, 65536)].all fun e : Nat × Nat => sineEntry e.1 == e.2) = true ∧
  (∀ i : Nat, i < 1024 → sineEntry i ≤ sineEntry (i + 1)) ∧
  (∀ i : Nat, i ≤ 1024 →
    ((sineEntry i ^ 2 + sineEntry (1024 - i) ^ 2 : Nat) - 2 ^ 32 : Int).natAbs ≤ 92682) ∧
  (∀ a : Int,
     let r := (a % 1048576).toNat
     let q := r / 262144
     let rho := r % 262144
     let u := if q = 0 ∨ q = 2 then rho else 262144 - rho
     let i := u / 256
     let f := u % 256
     let value : Nat := if i = 1024 then sineEntry 1024
       else sineEntry i + ((sineEntry (i + 1) - sineEntry i) * f + 128) / 256
     sine a = (if 2 ≤ q then -(value : Int) else value) ∧ cosine a = sine (a + 262144)) ∧
  (∀ n d : Int, 0 < d → RoundsTo n d (divRound n d))

/-- R62, R65: Zone Set: in either mode Range, then Invalid for an inverted clamped box or a Live KeepIn; in Setup
any other entry is replaced whole, its effective box the box and its age 0, and the masks and the speed
scale are re-evaluated (R72). -/
def Obligations.ZoneSetInSetup : Prop :=
  ∀ (tag : Byte) (f : ZoneFields) (s : State), s.part.Room →
    (let ok : Prop := f.index < 16 ∧ (f.state = 1 ∨ f.state = 2) ∧ f.kind ≤ 2 ∧
       f.margin ≤ 1048576 ∧ (f.kind ≠ 2 → f.response ≤ 2) ∧
       (f.kind = 2 → 256 ≤ f.scale ∧ f.scale ≤ 4095) ∧
       (f.state = 2 → 1 ≤ f.refresh ∧ f.refresh ≤ 65535 ∧ f.growth ≤ 65535)
     let b : Box :=
       ⟨clampCoord f.box.xmin, clampCoord f.box.xmax, clampCoord f.box.ymin, clampCoord f.box.ymax,
        clampCoord f.box.zmin, clampCoord f.box.zmax⟩
     let good : Prop := b.xmin ≤ b.xmax ∧ b.ymin ≤ b.ymax ∧ b.zmin ≤ b.zmax ∧
       ¬ (f.state = 2 ∧ f.kind = 1)
     (¬ ok → exec (.zoneSet tag f) s =
       .next { s with part := s.part.pushRefusal 0x21#8 tag .range }) ∧
     (ok → ¬ good → exec (.zoneSet tag f) s =
       .next { s with part := s.part.pushRefusal 0x21#8 tag .invalid }) ∧
     (ok → good → s.part.lane.mode = .setup →
       ∃ (i : ZoneIx) (z : ZoneEntry) (current stop : BitVec 16) (sigma : Nat),
       exec (.zoneSet tag f) s = .next { s with part :=
         ((s.part.withZone i z current stop sigma).pushDone 0x21#8 tag) } ∧
       (s.part.withZone i z current stop sigma).MasksAgree ∧ i.val = f.index ∧
       z.state.code = f.state ∧ z.kind.code = f.kind ∧ z.box = b ∧ z.effective = b ∧ z.age = 0 ∧
       z.margin = f.margin ∧ (f.kind ≠ 2 → z.response.code = f.response) ∧
       (f.kind = 2 → z.scale = f.scale) ∧
       z.refresh = (if f.state = 2 then f.refresh else 1) ∧
       z.growth = (if f.state = 2 then f.growth else 0)))

/-- R62 step 5, R63, R64: in Run, a consistent Zone Set is refused WrongMode where a field is less strict
than that of a Static or Live entry it replaces, then Unreachable where a KeepOut or KeepIn entry
would be hit by either tip of the tip record; any other is accepted as in Setup. -/
def Obligations.ZoneSetInRunOnlyTightens : Prop :=
  ∀ (tag : Byte) (f : ZoneFields) (i : ZoneIx) (z : ZoneEntry) (s : State), s.part.Room →
    s.part.lane.mode = .run → f.index = i.val → ZoneFields.toEntry f = some z →
    z.inconsistent = false →
    (let old := s.part.zone.zones[i]
     let inside (x y : Box) : Prop := y.xmin ≤ x.xmin ∧ x.xmax ≤ y.xmax ∧ y.ymin ≤ x.ymin ∧
       x.ymax ≤ y.ymax ∧ y.zmin ≤ x.zmin ∧ x.zmax ≤ y.zmax
     let strict : Prop := old.state ≠ .unused →
       z.state = old.state ∧ z.kind = old.kind ∧
       (old.kind = .keepIn → inside z.box old.effective) ∧
       (old.kind ≠ .keepIn → inside old.effective z.box) ∧
       old.margin ≤ z.margin ∧
       (old.kind ≠ .slow → old.response.code ≤ z.response.code) ∧
       (old.kind = .slow → z.scale ≤ old.scale) ∧
       (old.state = .live → z.refresh ≤ old.refresh ∧ old.growth ≤ z.growth)
     let barred : Prop := z.kind ≠ .slow ∧
       (z.Hits s.part.zone.currentTip ∨ z.Hits s.part.zone.stopTip)
     (¬ strict → exec (.zoneSet tag f) s =
       .next { s with part := s.part.pushRefusal 0x21#8 tag .wrongMode }) ∧
     (strict → barred → exec (.zoneSet tag f) s =
       .next { s with part := s.part.pushRefusal 0x21#8 tag .unreachable }) ∧
     (strict → ¬ barred → ∃ (current stop : BitVec 16) (sigma : Nat),
       exec (.zoneSet tag f) s = .next { s with part :=
         ((s.part.withZone i z current stop sigma).pushDone 0x21#8 tag) } ∧
       (s.part.withZone i z current stop sigma).MasksAgree))

/-- R67: Live Zone Update. -/
def Obligations.LiveZoneUpdateResult : Prop :=
  ∀ (tag : Byte) (box : Box) (s : State), s.part.Room →
    (let b : Box :=
       ⟨clampCoord box.xmin, clampCoord box.xmax, clampCoord box.ymin, clampCoord box.ymax,
        clampCoord box.zmin, clampCoord box.zmax⟩
     let sound : Prop := b.xmin ≤ b.xmax ∧ b.ymin ≤ b.ymax ∧ b.zmin ≤ b.zmax
     (s.part.lane.mode = .setup → ∀ n : Nat, exec (.liveZoneUpdate tag n box) s =
       .next { s with part := s.part.pushRefusal 0x23#8 tag .wrongMode }) ∧
     (s.part.lane.mode = .run → ∀ n : Nat, 16 ≤ n → exec (.liveZoneUpdate tag n box) s =
       .next { s with part := s.part.pushRefusal 0x23#8 tag .range }) ∧
     (s.part.lane.mode = .run → ∀ i : ZoneIx, s.part.zone.zones[i].state ≠ .live →
       exec (.liveZoneUpdate tag i.val box) s =
         .next { s with part := s.part.pushRefusal 0x23#8 tag .wrongState }) ∧
     (s.part.lane.mode = .run → ∀ i : ZoneIx, s.part.zone.zones[i].state = .live → ¬ sound →
       exec (.liveZoneUpdate tag i.val box) s =
         .next { s with part := s.part.pushRefusal 0x23#8 tag .invalid }) ∧
     (s.part.lane.mode = .run → ∀ i : ZoneIx, s.part.zone.zones[i].state = .live → sound →
       ∃ (current stop : BitVec 16) (sigma : Nat),
         exec (.liveZoneUpdate tag i.val box) s = .next { s with part :=
           ((s.part.withZone i { s.part.zone.zones[i] with box := b, effective := b, age := 0 }
             current stop sigma).pushDone 0x23#8 tag) } ∧
         (s.part.withZone i { s.part.zone.zones[i] with box := b, effective := b, age := 0 }
           current stop sigma).MasksAgree))

/-- R68, R116: a fill cycle, like any served cycle, ages every Live entry, and moves each face of its
effective box outward by the growth once the age is above the refresh limit; other entries stay as
they are (`ZoneEntry.aged`). The focus target ages too, and is stale when absent or above its own refresh limit. R59,
R61, R70 to R74, R78: the zone monitor's work of a served cycle gives the tips of the shaped counts and
of the stopping extents, then the hit masks and the speed scale they make; in Run outside Safe-Off with
the recovery flag clear each KeepOut entry hit posts Zone and each KeepIn entry hit Boundary, with its
response, in ascending index order; and the recovery flag stays set only while such an entry is hit. That a served cycle does this work, after its
step, `Part.CycleSteps` says (`ServedFrame`, `FillCycle`). -/
def Obligations.LiveDataAges : Prop :=
  (∀ (expiry : Nat) (s : State), s.part.gateway.timer = some expiry →
     ∃ t : Part, exec .fillCycle s = .next { s with part := t } ∧
       (∀ i : ZoneIx, t.zone.zones[i] = s.part.zone.zones[i].aged) ∧
       (let g := s.part.lens.target
        let age := min 65536 (g.age + 1)
        t.lens.target = { g with age := age, stale := (!g.present || decide (g.refresh < age)) })) ∧
  (∀ p : Part,
     let q := p.zoneWork
     let g := p.zone.geometry
     let times (a s : Int) : Int := divRound (a * s) 65536
     let tip (n : Slot → Int) : Point :=
       let theta := n 1 + g.swing
       let phi := n 2 + g.lift
       let reach := g.lb + n 3
       let rho := times reach (cosine phi)
       ⟨clampCoord (g.x0 + n 0 + times rho (cosine theta)), clampCoord (g.y0 + times rho (sine theta)),
        clampCoord (g.z0 + times reach (sine phi))⟩
     let ax (c : Slot) := p.shaper.axes[c]
     let ch (c : Slot) := p.shaper.chans[c]
     let hit (i : ZoneIx) : Bool := q.zone.currentHits.getLsbD i.val || q.zone.stopHits.getLsbD i.val
     let bars (i : ZoneIx) : Bool := hit i && decide (q.zone.zones[i].kind ≠ .slow)
     let tested : Prop := p.lane.mode = .run ∧ p.seq.state ≠ .safeOff ∧ p.zone.recovery = false
     q.zone.currentTip = tip (fun c => if (ax c).present then countOf (ch c).p else 0) ∧
     q.zone.stopTip = tip (fun c => if (ax c).present then
       countOf (stoppingExtent (ch c).p (ch c).v
         (if (ch c).source = .stop then (ch c).rampDecel else (ax c).astop)) else 0) ∧
     (∀ i : ZoneIx, q.zone.zones[i] = p.zone.zones[i].aged) ∧
     q.MasksAgree ∧
     (q.zone.recovery = true ↔ p.zone.recovery = true ∧ ∃ i, bars i = true) ∧
     (¬ tested → q.seq = p.seq) ∧
     (tested →
       (q.seq.causes.getLsbD 2 = true ↔ p.seq.causes.getLsbD 2 = true ∨
         ∃ i, bars i = true ∧ q.zone.zones[i].kind = .keepOut) ∧
       (q.seq.causes.getLsbD 3 = true ↔ p.seq.causes.getLsbD 3 = true ∨
         ∃ i, bars i = true ∧ q.zone.zones[i].kind = .keepIn) ∧
       (∀ i : ZoneIx, bars i = true → (∀ j : ZoneIx, j.val < i.val → bars j = false) →
         q.seq.firstCause = some (p.seq.firstCause.getD
           ⟨if q.zone.zones[i].kind = .keepOut then .zone else .boundary, i.val⟩)) ∧
       q.seq.state = ((List.finRange 16).filter bars).foldl
         (fun st i => st.after q.zone.zones[i].response p.hasBrake) p.seq.state))

/-! ## The stop sequencer (chapter 5) -/

/-- R80, R81, R90, R94, R97: a cause joins the cause set, is the first cause if there was none, and changes
the stop state and the category in force by the table of R81 (a Braking without brakes completes in
the same action); an entry into Safe-Off opens the stop chain output and clears the recovery flag. -/
def Obligations.CauseFollowsTable : Prop :=
  ∀ (p : Part) (kind : CauseKind) (category : Category) (detail : Nat),
    (let q := p.post kind category detail
     (∀ n : Nat, q.seq.causes.getLsbD n = (p.seq.causes.getLsbD n || n == kind.bit)) ∧
     q.seq.firstCause = some (p.seq.firstCause.getD ⟨kind, detail⟩) ∧
     q.seq.state = p.seq.state.after category p.hasBrake ∧
     q.seq.category = p.seq.category.after p.seq.state category ∧
     (q.seq.state ≠ .safeOff ∨ p.seq.state = .safeOff → q.seq.chainClosed = p.seq.chainClosed) ∧
     (q.seq.state = .safeOff → p.seq.state ≠ .safeOff →
       q.seq.chainClosed = false ∧ q.zone.recovery = false))

/-- R86: Stop posts Request with the category given, detail 0, and is answered Done whatever the stop state
does; a value other than Hold, Ramp or Hard is refused Range. -/
def Obligations.StopRequestResult : Prop :=
  ∀ (tag : Byte) (s : State), s.part.Room →
    (∀ n : Nat, 2 < n → exec (.stop tag n) s =
      .next { s with part := s.part.pushRefusal 0x30#8 tag .range }) ∧
    (∀ category : Category, ∃ t : Part,
      exec (.stop tag category.code) s = .next { s with part := t } ∧
      t.lane.tail = some ⟨s.part.lane.nextTicket, tag, 0x30#8, some ⟨.done, []⟩⟩ ∧
      t.seq.state = s.part.seq.state.after category s.part.hasBrake ∧
      (∀ n : Nat, t.seq.causes.getLsbD n = (s.part.seq.causes.getLsbD n || n == 13)) ∧
      t.seq.firstCause = some (s.part.seq.firstCause.getD ⟨.request, 0⟩))

/-- R87, R41, R88, R97: a cause that moves the stop state out of Running records the resume sources, parks
the Take-sourced lens channels at their stopping extents, leaves the player playing nothing and the
recorder recording nothing, and puts each present motion axis on Stop with its Astop latched, or on
Track for a Hard cause, keeping p and v. -/
def Obligations.LeavingRunning : Prop :=
  ∀ (p : Part) (kind : CauseKind) (category : Category) (detail : Nat), p.seq.state = .running →
    (let q := p.post kind category detail
     q.player.state.idle = true ∧ q.recorder.state.quiet = true ∧
     (p.player.state = .approaching ∨ p.player.state = .waiting ∨ p.player.state = .playing →
       q.player.state = .halted ∧ q.player.pointer = p.player.pointer) ∧
     (p.recorder.state = .recording ∨ p.recorder.state = .stalled →
       q.recorder.state = .closing ∧ q.recorder.closeReason = .stop) ∧
     (p.recorder.state = .armed → q.recorder.state = .idle) ∧
     (∀ l : LensIx,
       let ch := p.shaper.chans[LensIx.slot l]
       q.shaper.chans[LensIx.slot l] =
         if ch.source = .take then
           { ch with source := .parked
                     park := stoppingExtent ch.p ch.v p.shaper.axes[LensIx.slot l].amax }
         else ch) ∧
     (∀ a : Axis,
       let ch := p.shaper.chans[Axis.slot a]
       let resume : ResumeSource := if ch.source = .live then .live else .parked
       q.shaper.chans[Axis.slot a] =
         if p.shaper.axes[Axis.slot a].present = false then ch
         else if category = .hard then { ch with source := .track, resume := resume }
         else { ch with source := .stop, resume := resume
                        rampDecel := p.shaper.axes[Axis.slot a].astop }))

/-- R84, R85: an opening of the E-stop line opens the stop chain output at once and posts EStop, Hard; an
opening of the Guard line posts Guard, Ramp; a closing is recorded and changes nothing else. -/
def Obligations.StopLines : Prop :=
  ∀ s : State,
    (s.part.seq.eStopOpen = false → ∃ t : Part, exec .eStopOpen s = .next { s with part := t } ∧
      t.seq.eStopOpen = true ∧ t.seq.chainClosed = false ∧ t.seq.state = .safeOff ∧
      t.seq.causes.getLsbD 0 = true ∧
      t.seq.firstCause = some (s.part.seq.firstCause.getD ⟨.eStop, 0⟩)) ∧
    exec .eStopClose s = .next { s with part := { s.part with
      seq := { s.part.seq with eStopOpen := false } } } ∧
    (s.part.seq.guardOpen = false → ∃ t : Part, exec .guardOpen s = .next { s with part := t } ∧
      t.seq.guardOpen = true ∧ t.seq.state = s.part.seq.state.after .ramp s.part.hasBrake ∧
      t.seq.causes.getLsbD 1 = true ∧
      t.seq.firstCause = some (s.part.seq.firstCause.getD ⟨.guard, 0⟩)) ∧
    exec .guardClose s = .next { s with part := { s.part with
      seq := { s.part.seq with guardOpen := false } } }

/-- R98, R99, R76: Rearm. -/
def Obligations.RearmResult : Prop :=
  ∀ (tag : Byte) (recover : Nat) (s : State), s.part.Room →
    (let ok : Prop := s.part.seq.eStopOpen = false ∧ s.part.seq.guardOpen = false ∧
       (∀ c : Slot, s.part.shaper.axes[c].present = true →
         s.part.gateway.feedback[c].status.fault = false) ∧
       s.part.gateway.driveMiss = 0 ∧
       (∀ a : Axis, s.part.shaper.axes[Axis.slot a].present = true →
         s.part.gateway.feedback[Axis.slot a].stale = false ∧
         s.part.shaper.axes[Axis.slot a].pmin ≤ s.part.gateway.feedback[Axis.slot a].actual ∧
         s.part.gateway.feedback[Axis.slot a].actual ≤ s.part.shaper.axes[Axis.slot a].pmax) ∧
       (s.part.zone.clear = true ∨ recover = 1)
     let recovering : Bool := recover == 1 && !s.part.zone.clear
     (s.part.lane.mode = .setup → exec (.rearm tag recover) s =
       .next { s with part := s.part.pushRefusal 0x31#8 tag .wrongMode }) ∧
     (s.part.lane.mode = .run → 1 < recover → exec (.rearm tag recover) s =
       .next { s with part := s.part.pushRefusal 0x31#8 tag .range }) ∧
     (s.part.lane.mode = .run → recover ≤ 1 → s.part.seq.state ≠ .safeOff →
       exec (.rearm tag recover) s =
         .next { s with part := s.part.pushRefusal 0x31#8 tag .wrongState }) ∧
     (s.part.lane.mode = .run → recover ≤ 1 → s.part.seq.state = .safeOff → ¬ ok →
       exec (.rearm tag recover) s =
         .next { s with part := s.part.pushRefusal 0x31#8 tag .blocked }) ∧
     (s.part.lane.mode = .run → recover ≤ 1 → s.part.seq.state = .safeOff → ok →
       ∃ (chans : Vector Channel 12) (sigma : Nat),
         exec (.rearm tag recover) s = .next { s with part := (Part.pushDone { s.part with
           shaper := { s.part.shaper with chans := chans, sigma := sigma }
           zone := { s.part.zone with recovery := s.part.zone.recovery || recovering }
           seq := { s.part.seq with
             causes := 0, firstCause := none, chainClosed := true, state := .arming
             readiness := false, phaseStart := s.part.gateway.cycle, phaseCount := 0
             axes := Vector.ofFn fun a : Axis =>
               { s.part.seq.axes[a] with confirmed := false, shown := false } } } 0x31#8 tag) } ∧
         (recovering = true → sigma ≤ 256) ∧ (recovering = false → sigma = s.part.shaper.sigma) ∧
         (∀ c : Slot, c.val < 8 ∧ s.part.shaper.axes[c].present = true →
           chans[c] = { s.part.shaper.chans[c] with
             source := .parked, v := 0
             p := s.part.gateway.feedback[c].actual * 65536
             park := s.part.gateway.feedback[c].actual * 65536 }) ∧
         (∀ c : Slot, ¬ (c.val < 8 ∧ s.part.shaper.axes[c].present = true) →
           chans[c] = s.part.shaper.chans[c])))

/-- R103: Continue. -/
def Obligations.ContinueResult : Prop :=
  ∀ (tag : Byte) (s : State), s.part.Room →
    (let blocked : Prop := s.part.seq.guardOpen = true ∨
       (s.part.zone.clear = false ∧ s.part.zone.recovery = false)
     (s.part.lane.mode = .setup → exec (.continueStop tag) s =
       .next { s with part := s.part.pushRefusal 0x32#8 tag .wrongMode }) ∧
     (s.part.lane.mode = .run → s.part.seq.state ≠ .holding → exec (.continueStop tag) s =
       .next { s with part := s.part.pushRefusal 0x32#8 tag .wrongState }) ∧
     (s.part.lane.mode = .run → s.part.seq.state = .holding → blocked →
       exec (.continueStop tag) s =
         .next { s with part := s.part.pushRefusal 0x32#8 tag .blocked }) ∧
     (s.part.lane.mode = .run → s.part.seq.state = .holding → ¬ blocked →
       exec (.continueStop tag) s = .next { s with part := (Part.pushDone { s.part with
         seq := { s.part.seq with state := .running }
         shaper := { s.part.shaper with chans := (Vector.ofFn fun c : Slot =>
           if c.val < 8 ∧ s.part.shaper.axes[c].present = true ∧
               s.part.shaper.chans[c].resume = .live then
             { s.part.shaper.chans[c] with source := .live }
           else s.part.shaper.chans[c]) } } 0x32#8 tag) }))

/-- R91, R92: a feedback read in Settling within the still mask is ignored; after it, each present axis's
still run and reference count follow the table of R91 (the reference is none for a slot that is stale
or unanswered, else this cycle's actual count), and standstill, all runs at the dwell, ends a Hold stop
in Holding and a Ramp stop in Braking, or in Safe-Off where no axis has a brake. That the cycle before is the
reference's number plus one is the model's reading (log 18). R95, R96: in Braking, past the brake mask,
an axis whose mode is Feedback or Either is confirmed by an answered slot that shows its brake engaged,
and Braking is complete in Safe-Off. R100: in Arming, after the cycle of the Rearm, readiness is seen
once every present axis shows ready with torque on; R101: past the brake mask from the release start an
answered slot that shows the brake not engaged confirms the release, and Arming is complete in
Holding. That R95, R100 and R101 too take the difference of cycle numbers modulo 65,536, as R91 does, is the
model's reading (log 59). In the other stop states a feedback changes nothing. -/
def Obligations.StandstillReading : Prop :=
  (∀ (p : Part) (cycle : CycleNo), p.seq.state = .settling →
     (let dwell := p.shaper.timing.stillDwell
      let past := p.shaper.timing.stillMask < (cycle - p.seq.phaseStart).toNat
      let run (a : Axis) : Nat :=
        let f := p.gateway.feedback[Axis.slot a]
        match p.seq.axes[a].reference with
        | none => 0
        | some r =>
          if f.stale = false ∧ f.status.answered = true ∧ r.cycle + 1 = cycle ∧
              (f.actual - r.count).natAbs ≤ p.shaper.axes[Axis.slot a].still then
            min dwell (p.seq.axes[a].stillRun + 1)
          else 0
      let reference (a : Axis) : Option StillReference :=
        let f := p.gateway.feedback[Axis.slot a]
        if f.stale = false ∧ f.status.answered = true then some ⟨f.actual, cycle⟩ else none
      let still := ∀ a : Axis, p.shaper.axes[Axis.slot a].present = true → run a = dwell
      let q := p.sequencerReading cycle
      let read : Vector SequencerAxis 8 := Vector.ofFn fun a : Axis =>
        if p.shaper.axes[Axis.slot a].present then
          { p.seq.axes[a] with stillRun := run a, reference := reference a }
        else p.seq.axes[a]
      (¬ past → q = p) ∧
      (past → ¬ still → q = { p with seq := { p.seq with axes := read } }) ∧
      (past → still → p.seq.category = .hold → q.seq = { p.seq with
          state := .holding, category := .none, axes := read } ∧
        ∀ a : Axis, p.shaper.axes[Axis.slot a].present = true →
          q.shaper.chans[Axis.slot a] = { p.shaper.chans[Axis.slot a] with
            source := .parked, park := p.shaper.chans[Axis.slot a].p }) ∧
      (past → still → p.seq.category = .ramp →
        q.seq.state = if p.hasBrake then .braking else .safeOff))) ∧
  (∀ (p : Part) (cycle : CycleNo),
     let q := p.sequencerReading cycle
     let ax (a : Axis) := p.shaper.axes[Axis.slot a]
     let st (a : Axis) := p.gateway.feedback[Axis.slot a].status
     let mask := p.shaper.timing.brakeMask
     let fed (a : Axis) : Bool := (ax a).brakePresent && decide ((ax a).confirm ≠ .timer)
     let all (f : Axis → Bool) : Prop := ∀ a : Axis, (ax a).present = true → f a = true
     let confirms (f : Axis → Bool) : Prop := ∀ a : Axis, q.seq.axes[a].confirmed =
       if (ax a).present then f a else p.seq.axes[a].confirmed
     let parked : Prop := q.seq.state = .holding ∧ q.seq.category = .none ∧
       q.seq.chainClosed = p.seq.chainClosed ∧
       ∀ a : Axis, (ax a).present = true → q.shaper.chans[Axis.slot a] =
         { p.shaper.chans[Axis.slot a] with source := .parked, park := p.shaper.chans[Axis.slot a].p }
     (p.seq.state = .safeOff ∨ p.seq.state = .holding ∨ p.seq.state = .running ∨
       p.seq.state = .ramping → q = p) ∧
     (p.seq.state = .braking →
       let past := mask < (cycle - p.seq.phaseStart).toNat
       let engaged (a : Axis) : Bool :=
         p.seq.axes[a].confirmed || (fed a && (st a).answered && (st a).brakeEngaged)
       (¬ past → q = p) ∧
       (past → all engaged → q.seq.state = .safeOff ∧ q.seq.chainClosed = false ∧
         q.seq.causes = p.seq.causes) ∧
       (past → ¬ all engaged → q.seq.state = .braking ∧ q.shaper = p.shaper ∧ confirms engaged)) ∧
     (p.seq.state = .arming → p.seq.releaseStart = none →
       let ready (a : Axis) : Bool := (st a).answered && (st a).ready && (st a).torqueOn
       let free (a : Axis) : Bool := p.seq.axes[a].confirmed || !(ax a).brakePresent
       (cycle = p.seq.phaseStart → q = p) ∧
       (cycle ≠ p.seq.phaseStart → ¬ all ready → q.seq.state = .arming ∧
         q.seq.readiness = p.seq.readiness ∧ q.seq.releaseStart = none ∧
         ∀ a : Axis, (ax a).present = true → q.seq.axes[a].shown = ready a) ∧
       (cycle ≠ p.seq.phaseStart → all ready → q.seq.readiness = true ∧
         q.seq.releaseStart = some p.gateway.cycle ∧ q.seq.releaseServed = 0 ∧ confirms free ∧
         (all free → parked) ∧ (¬ all free → q.seq.state = .arming ∧ q.shaper = p.shaper))) ∧
     (∀ start : CycleNo, p.seq.state = .arming → p.seq.releaseStart = some start →
       p.seq.readiness = true →
       let past := mask < (cycle - start).toNat
       let released (a : Axis) : Bool :=
         p.seq.axes[a].confirmed || (fed a && (st a).answered && !(st a).brakeEngaged)
       (¬ past → q = p) ∧
       (past → confirms released ∧ (all released → parked) ∧
         (¬ all released → q.seq.state = .arming ∧ q.shaper = p.shaper))))

/-- R93, R96, R101: the three timeouts, where they are due, post StillTimeout, BrakeTimeout and ArmFail, Hard,
with the lowest present motion slot still short of the dwell, unconfirmed, or not yet released (before
readiness is seen: not shown ready with torque on in the last feedback read) as detail, and lead to
Safe-Off. Where no feedback was read since the Rearm, no axis counts as having shown ready, and the detail
is the lowest present motion slot: the model's choice (log 20). R95, R96, R101: the brake timer confirms every present motion axis with
a brake in Timer or Either mode, in Braking and, counted from the release start, in Arming; once all
present axes are confirmed, Braking is complete in Safe-Off and Arming in Holding, its axes parked
where they stand. That the release timer counts servings, in a counter of its own, and not cycle numbers
is the model's reading (log 19). R91, R93 to R96, R100, R101: at the serving of a served cycle the phase count of
Settling, Braking and Arming, and the served cycles since the release start, go up by one, saturating,
and then the timers of that state act as their commands do, confirmations before timeouts; in the other
states the serving changes nothing. That the serving itself applies the timers is the model's reading
(log 5). -/
def Obligations.SequencerTimers : Prop :=
  (∀ s : State,
     (let present (a : Axis) : Prop := s.part.shaper.axes[Axis.slot a].present = true
      let lowest (bad : Axis → Prop) (a : Axis) : Prop :=
        present a ∧ bad a ∧ ∀ b : Axis, b.val < a.val → ¬ (present b ∧ bad b)
      let short (a : Axis) : Prop := s.part.seq.axes[a].stillRun < s.part.shaper.timing.stillDwell
      let open' (a : Axis) : Prop := s.part.seq.axes[a].confirmed = false
      let unready (a : Axis) : Prop := s.part.seq.axes[a].shown = false
      (s.part.seq.state = .settling → s.part.shaper.timing.stillTimeout ≤ s.part.seq.phaseCount →
        ∃ t : Part, exec .stillTimeout s = .next { s with part := t } ∧ t.seq.state = .safeOff ∧
          t.seq.chainClosed = false ∧ t.seq.causes.getLsbD 10 = true ∧
          ∀ a, lowest short a →
            t.seq.firstCause = some (s.part.seq.firstCause.getD ⟨.stillTimeout, a.val⟩)) ∧
      (s.part.seq.state = .braking → s.part.shaper.timing.brakeTimeout ≤ s.part.seq.phaseCount →
        ∀ a, lowest open' a →
        ∃ t : Part, exec .brakeTimeout s = .next { s with part := t } ∧ t.seq.state = .safeOff ∧
          t.seq.chainClosed = false ∧ t.seq.causes.getLsbD 11 = true ∧
          t.seq.firstCause = some (s.part.seq.firstCause.getD ⟨.brakeTimeout, a.val⟩)) ∧
      (s.part.seq.state = .arming → s.part.shaper.timing.armingTimeout ≤ s.part.seq.phaseCount →
        ∃ t : Part, exec .armingTimeout s = .next { s with part := t } ∧ t.seq.state = .safeOff ∧
          t.seq.chainClosed = false ∧ t.seq.causes.getLsbD 12 = true ∧
          (s.part.seq.readiness = true → ∀ a, lowest open' a →
            t.seq.firstCause = some (s.part.seq.firstCause.getD ⟨.armFail, a.val⟩)) ∧
          (s.part.seq.readiness = false → ∀ a, lowest unready a →
            t.seq.firstCause = some (s.part.seq.firstCause.getD ⟨.armFail, a.val⟩))))) ∧
  (∀ s : State,
     (let ax (a : Axis) := s.part.shaper.axes[Axis.slot a]
      let confirmed (a : Axis) : Bool := s.part.seq.axes[a].confirmed ||
        ((ax a).brakePresent && (ax a).confirm != .feedback)
      let all := ∀ a : Axis, (ax a).present = true → confirmed a = true
      (s.part.seq.state = .braking → s.part.shaper.timing.brakeTimer ≤ s.part.seq.phaseCount →
        ∃ t : Part, exec .brakeTimer s = .next { s with part := t } ∧
          (all → t.seq.state = .safeOff ∧ t.seq.chainClosed = false ∧
            t.seq.causes = s.part.seq.causes) ∧
          (¬ all → t.seq.state = .braking ∧ t.shaper = s.part.shaper ∧
            ∀ a : Axis, t.seq.axes[a].confirmed =
              if (ax a).present then confirmed a else s.part.seq.axes[a].confirmed)) ∧
      (s.part.seq.state = .arming → s.part.seq.readiness = true →
        s.part.shaper.timing.brakeTimer ≤ s.part.seq.releaseServed →
        ∃ t : Part, exec .releaseTimer s = .next { s with part := t } ∧
          (all → t.seq.state = .holding ∧ t.seq.chainClosed = s.part.seq.chainClosed ∧
            ∀ a : Axis, (ax a).present = true → t.shaper.chans[Axis.slot a] =
              { s.part.shaper.chans[Axis.slot a] with
                source := .parked, park := s.part.shaper.chans[Axis.slot a].p }) ∧
          (¬ all → t.seq.state = .arming ∧ t.shaper = s.part.shaper ∧
            ∀ a : Axis, t.seq.axes[a].confirmed =
              if (ax a).present then confirmed a else s.part.seq.axes[a].confirmed)))) ∧
  (∀ (p : Part) (waiting : List Instr),
     (let counted : Part := { p with seq := { p.seq with phaseCount := min 65535 (p.seq.phaseCount + 1) } }
      let released : Part := { counted with seq := { counted.seq with
        releaseServed := if p.seq.releaseStart = none then p.seq.releaseServed
          else min 65535 (p.seq.releaseServed + 1) } }
      let makes (c : Instr) (x y : Part) : Prop := exec c ⟨x, waiting⟩ = .next ⟨y, waiting⟩
      (p.seq.state = .settling → makes .stillTimeout counted p.sequencerServing) ∧
      (p.seq.state = .braking →
        ∃ x, makes .brakeTimer counted x ∧ makes .brakeTimeout x p.sequencerServing) ∧
      (p.seq.state = .arming →
        ∃ x, makes .releaseTimer released x ∧ makes .armingTimeout x p.sequencerServing) ∧
      (p.seq.state = .safeOff ∨ p.seq.state = .holding ∨ p.seq.state = .running ∨
        p.seq.state = .ramping → p.sequencerServing = p)))

/-- Log 3: a command that reports an event of the part itself has no effect while that event is not due: a line
that does not open, a timer that is not running or is below its count, a timer of another state, a
phase point or a sync time that is not set, a completion of an operation that is not in progress or is
of another kind. The manual describes the events only where they happen; the model's choice fills the
rest. -/
def Obligations.EventsNotDueChangeNothing : Prop :=
  ∀ s : State,
    (s.part.seq.eStopOpen = true → exec .eStopOpen s = .next s) ∧
    (s.part.seq.guardOpen = true → exec .guardOpen s = .next s) ∧
    (s.part.gateway.timer = none → exec .fillCycle s = .next s) ∧
    (let q := s.part.seq
     let times := s.part.shaper.timing
     (q.state ≠ .settling ∨ q.phaseCount < times.stillTimeout → exec .stillTimeout s = .next s) ∧
     (q.state ≠ .braking ∨ q.phaseCount < times.brakeTimer → exec .brakeTimer s = .next s) ∧
     (q.state ≠ .braking ∨ q.phaseCount < times.brakeTimeout ∨
         (∀ a : Axis, s.part.shaper.axes[Axis.slot a].present = true → q.axes[a].confirmed = true) →
       exec .brakeTimeout s = .next s) ∧
     (q.state ≠ .arming ∨ q.readiness = false ∨ q.releaseServed < times.brakeTimer →
       exec .releaseTimer s = .next s) ∧
     (q.state ≠ .arming ∨ q.phaseCount < times.armingTimeout → exec .armingTimeout s = .next s)) ∧
    (s.part.sync.state ≠ .locked ∨ s.part.sync.lossTime = none → exec .lossTime s = .next s) ∧
    (s.part.sync.state ≠ .freewheel ∨ s.part.sync.nextSynth = none →
      exec .edgeSynthesis s = .next s) ∧
    (s.part.sync.phasePoint = none → exec .phasePointExpiry s = .next s) ∧
    (let operation := s.part.array.operation
     let reads (o : Operation) : Prop :=
       (∃ i k w, o = .job (.playerRead i k) w) ∨ ∃ n i k w, o = .job (.takeRead n i k) w
     let erases (o : Operation) : Prop := ∃ bay, o = .erase bay
     ((∀ o, operation = some o → ¬ reads o) → exec .pageReadComplete s = .next s) ∧
     ((∀ o, operation = some o → reads o ∨ erases o) → exec .pageProgramComplete s = .next s) ∧
     ((∀ o, operation = some o → ¬ erases o) → exec .bayEraseComplete s = .next s)) ∧
    (s.part.array.scan = none → exec .scanReadComplete s = .next s) ∧
    (s.part.player.state ≠ .suspended ∨ s.part.player.autoInterval = 0 ∨
        s.part.player.autoCount < s.part.player.autoInterval → exec .autoPoll s = .next s)

/-! ## What every step keeps -/

/-- R82, R78, R87: every step keeps the law of the stop chain output, the clear recovery flag of Safe-Off,
and the silence of the player and the recorder outside Running. -/
def Obligations.StopLawsKept : Prop :=
  ∀ s t : State, s.part.ChainLaw → s.part.RecoveryLaw → s.part.PlayLaw → step s = .next t →
    t.part.ChainLaw ∧ t.part.RecoveryLaw ∧ t.part.PlayLaw

/-- Section 2.1, R23 to R25: every step keeps the law of the reply queue. -/
def Obligations.QueueLawKept : Prop :=
  ∀ s t : State, s.part.QueueLaw → step s = .next t → t.part.QueueLaw

/-- Chapter 8: every step keeps the canonical form of the take array's bytes, inside the array. -/
def Obligations.MemoryStaysCanonical : Prop :=
  ∀ s t : State, s.part.array.memory.wf = true → step s = .next t → t.part.array.memory.wf = true

/-- R135 to R137: once the scan is complete each of the 512 bays stands in exactly one of the erased queue, the
dirty queue, one slot's bay list, and the erase in progress or suspended, and no place holds a bay
twice. Every step keeps this, with what keeps it so (`Part.BayLaw`): the step that ends the scan
establishes it. -/
def Obligations.BaysStandOnce : Prop :=
  ∀ s t : State, s.part.BayLaw → step s = .next t → t.part.BayLaw

/-- Sections 1.1, 2.1, 5.1, 9.1, 10.2, R46, R62: every step keeps the saturating counters and the speed
scales in their ranges. -/
def Obligations.RangesKept : Prop :=
  ∀ s t : State, s.part.CountersInRange → s.part.ScaleInRange → step s = .next t →
    t.part.CountersInRange ∧ t.part.ScaleInRange

/-- The state after reset meets every law that the steps keep (`WindowHolds` among them). -/
def Obligations.ResetMeetsTheLaws : Prop :=
  Part.reset.ChainLaw ∧ Part.reset.RecoveryLaw ∧ Part.reset.PlayLaw ∧ Part.reset.QueueLaw ∧
  Part.reset.array.memory.wf = true ∧ Part.reset.CountersInRange ∧ Part.reset.ScaleInRange ∧
  Part.reset.WindowLaw ∧ Part.reset.BayLaw ∧ Part.reset.WorkLaw

/-! ## The envelope shaper (sections 3.3 and 3.4) -/

/-- R47: the braking speed is the largest speed w with w + D(w, A) ≤ d; it never exceeds d, and is d below A.
R48: the stopping distance D is the sum of |v| − A, |v| − 2A, and so on; it is 0 up to A, does not
decrease as |v| grows and does not increase as A grows. -/
def Obligations.BrakingSpeedIsLargest : Prop :=
  (∀ d a : Nat, 1 ≤ a →
     brakingSpeed d a + stoppingDistance (brakingSpeed d a) a ≤ d ∧
     (∀ w : Nat, w + stoppingDistance w a ≤ d → w ≤ brakingSpeed d a) ∧
     brakingSpeed d a ≤ d ∧ (d < a → brakingSpeed d a = d) ∧ brakingSpeed 0 a = 0) ∧
  (∀ v a : Nat, 1 ≤ a →
     stoppingDistance v a = ((List.range (v / a)).map fun i => v - (i + 1) * a).sum ∧
     (v ≤ a → stoppingDistance v a = 0) ∧
     (∀ w, v ≤ w → stoppingDistance v a ≤ stoppingDistance w a) ∧
     (∀ b, a ≤ b → stoppingDistance v b ≤ stoppingDistance v a))

/-- R50, R89: the stop generator brings an axis to rest at the stopping extent at its latched
deceleration, however long the ramp, and leaves it there. -/
def Obligations.RampEndsAtStoppingExtent : Prop :=
  ∀ (ch : Channel) (n : Nat), 1 ≤ ch.rampDecel → ch.v.natAbs / ch.rampDecel < n →
    (Channel.generateN n ch).v = 0 ∧
    (Channel.generateN n ch).p = stoppingExtent ch.p ch.v ch.rampDecel

/-- R51: a step of R45, towards any request and at any speed scale, keeps the shaped position and the
stopping extent at Amax inside the window, and changes the velocity by at most Amax. And every step of
the machine keeps the window law: whatever command is executed, each present channel that is not on
Track keeps both in its axis window, which for a motion axis is its effective window. For a lens
channel in Map or Follow the law says the axis window only: a table committed and Mode Run in one lane
may install a narrower window than the one the channel took up in (R39, R112). -/
def Obligations.WindowHolds : Prop :=
  (∀ (ch : Channel) (r : Int) (w : Int × Int) (amax veff : Nat), 1 ≤ amax → w.1 ≤ w.2 →
     ch.InWindow w amax →
     (ch.shape r w amax veff).InWindow w amax ∧
     ((ch.shape r w amax veff).v - ch.v).natAbs ≤ amax) ∧
  (∀ s t : State, s.part.ChainLaw → s.part.PlayLaw → s.part.WindowLaw → step s = .next t →
     t.part.WindowLaw)

/-! ## Lens channels (chapter 6) -/

/-- R109, R42, R118: what refuses a Lens Mode Set, in the order of its steps, and the mode already in force. An
accepted one, the channel not being recorded: the mode changes at once; in Run a present channel
leaving Off takes up on Live where its drive stands, one entering Off goes to Track, and the last
demand is set from the shaped count in the unit of the new mode. R168: an accepted one for a channel of
the take in Recording or Stalled has the same effect on the channel and also closes the recording, end
reason Mode. The model's choices: steps
5 and 6 judge by the window of the table to come (log 27), and entering Off keeps the last demand
(log 38). -/
def Obligations.LensModeSetResult : Prop :=
  (∀ (tag : Byte) (s : State), s.part.Room →
     (∀ channel mode : Nat, channel < 8 ∨ 12 ≤ channel ∨ 3 < mode ∨ (mode = 3 ∧ channel ≠ 8) →
       exec (.lensModeSet tag channel mode) s =
         .next { s with part := s.part.pushRefusal 0x40#8 tag .range }) ∧
     (∀ (l : LensIx) (m : LensMode), (m = .follow → l.val = 0) →
       let c := LensIx.slot l
       let old := s.part.lens.chans[l]
       let w := lensWindow s.part.shaper.axes[c] m (old.pending.getD old.active)
       let driven : Prop := s.part.lane.mode = .run ∧ s.part.shaper.axes[c].present = true
       let code (r : ResultCode) : Prop := exec (.lensModeSet tag c.val m.code) s =
         .next { s with part := s.part.pushRefusal 0x40#8 tag r }
       let valid : Prop := m = .map ∨ m = .follow → 2 ≤ (old.pending.getD old.active).length
       let still : Prop := s.part.shaper.chans[c].source ≠ .take ∧ s.part.shaper.chans[c].v = 0
       (m = old.mode → exec (.lensModeSet tag c.val m.code) s =
         .next { s with part := s.part.pushDone 0x40#8 tag }) ∧
       (m ≠ old.mode → ¬ valid → code .invalid) ∧
       (m ≠ old.mode → valid → driven → ¬ still → code .wrongState) ∧
       (m ≠ old.mode → valid → driven → still → old.mode = .off →
         s.part.gateway.feedback[c].stale = true → code .blocked) ∧
       (m ≠ old.mode → valid → driven → still → old.mode = .off →
         s.part.gateway.feedback[c].stale = false →
         ¬ (w.1 ≤ s.part.gateway.feedback[c].actual ∧ s.part.gateway.feedback[c].actual ≤ w.2) →
         code .unreachable) ∧
       (m ≠ old.mode → valid → driven → still → old.mode ≠ .off → m ≠ .off →
         ¬ (w.1 * 65536 ≤ s.part.shaper.chans[c].p ∧ s.part.shaper.chans[c].p ≤ w.2 * 65536) →
         code .unreachable))) ∧
  (∀ (tag : Byte) (l : LensIx) (m : LensMode) (s : State), s.part.Room →
     (let c := LensIx.slot l
      let ch := s.part.shaper.chans[c]
      let old := s.part.lens.chans[l]
      let table := old.pending.getD old.active
      let w := lensWindow s.part.shaper.axes[c] m table
      let driven : Prop := s.part.lane.mode = .run ∧ s.part.shaper.axes[c].present = true
      let last (count : Int) : Int :=
        if m = .off then old.lastDemand else if m = .direct then count else reverseMap table count
      let actual := s.part.gateway.feedback[c].actual
      let shaped (chans : Vector Channel 12) : Shaper := { s.part.shaper with chans := chans }
      let modes (last : Int) : LensMapper := { s.part.lens with
        chans := s.part.lens.chans.set l { old with mode := m, lastDemand := last } }
      let open' (chans : Vector Channel 12) (last : Int) : Prop :=
        exec (.lensModeSet tag c.val m.code) s = .next { s with part :=
          (Part.pushDone { s.part with shaper := shaped chans, lens := modes last } 0x40#8 tag) }
      let closes (chans : Vector Channel 12) (last : Int) : Prop :=
        ∃ t : Part, exec (.lensModeSet tag c.val m.code) s = .next { s with part := t } ∧
          t.lane.tail = some ⟨s.part.lane.nextTicket, tag, 0x40#8, some ⟨.done, []⟩⟩ ∧
          t.shaper = shaped chans ∧ t.lens = modes last ∧ t.recorder.state = .closing ∧
          t.recorder.closeReason = .mode ∧ t.array.memory = s.part.array.memory
      (m = .follow → l.val = 0) → m ≠ old.mode →
      (m = .map ∨ m = .follow → 2 ≤ table.length) →
      let recorded : Prop := (s.part.recorder.state = .recording ∨ s.part.recorder.state = .stalled) ∧
        ∃ i, s.part.recorder.slot = some i ∧
          s.part.array.directory[i].info.mask.getLsbD c.val = true
      let upright : Prop := old.mode = .off ∧ s.part.gateway.feedback[c].stale = false ∧
        w.1 ≤ actual ∧ actual ≤ w.2
      let across : Prop := old.mode ≠ .off ∧ m ≠ .off ∧ w.1 * 65536 ≤ ch.p ∧ ch.p ≤ w.2 * 65536
      let changes (result : Vector Channel 12 → Int → Prop) : Prop :=
        (¬ driven → result s.part.shaper.chans old.lastDemand) ∧
        (driven → ch.source ≠ .take → ch.v = 0 →
          (upright → result (s.part.shaper.chans.set c
            { ch with source := .live, p := actual * 65536 }) (last actual)) ∧
          (old.mode ≠ .off → m = .off →
            result (s.part.shaper.chans.set c { ch with source := .track }) old.lastDemand) ∧
          (across → result s.part.shaper.chans (last (countOf ch.p))))
      (¬ recorded → changes open') ∧ (recorded → changes closes)))

/-- R110: Lens Points. -/
def Obligations.LensPointsResult : Prop :=
  ∀ (tag : Byte) (f : LensPointsFields) (s : State), s.part.Room →
    (let placed : Prop := 8 ≤ f.channel ∧ f.channel ≤ 11 ∧ f.start ≤ 63
     let paired : Prop := 1 ≤ f.pairs.length ∧ f.pairs.length ≤ 59 ∧
       ∀ p ∈ f.pairs, p.phys ≤ 16777215 ∧ -8388607 ≤ p.count ∧ p.count ≤ 8388607
     (¬ placed → exec (.lensPoints tag f) s =
       .next { s with part := s.part.pushRefusal 0x41#8 tag .range }) ∧
     (placed → f.extra ≠ 0 → exec (.lensPoints tag f) s =
       .next { s with part := s.part.pushRefusal 0x41#8 tag .invalid }) ∧
     (placed → f.extra = 0 → ¬ paired → exec (.lensPoints tag f) s =
       .next { s with part := s.part.pushRefusal 0x41#8 tag .range }) ∧
     (placed → f.extra = 0 → paired → ∃ (l : LensIx) (st : Vector StagingEntry 64),
       f.channel = l.val + 8 ∧
       exec (.lensPoints tag f) s = .next { s with part := (Part.pushDone { s.part with
         lens := { s.part.lens with chans := (s.part.lens.chans.set l
           { s.part.lens.chans[l] with staging := st, staged := true }) } } 0x41#8 tag) } ∧
       (∀ (j : Nat) (p : LensPair) (k : Fin 64), f.pairs[j]? = some p →
         k.val = (f.start + j) % 64 → st[k] = ⟨p.phys, p.count, true⟩) ∧
       (∀ k : Fin 64, (∀ j < f.pairs.length, k.val ≠ (f.start + j) % 64) →
         st[k] = s.part.lens.chans[l].staging[k])))

/-- R111, R112: Lens Commit. The reach check is made with the commit's own points; that this is the check of a
second commit before the installation too is the model's choice (log 57). -/
def Obligations.LensCommitResult : Prop :=
  ∀ (tag : Byte) (n : Nat) (s : State), s.part.Room →
    (∀ channel : Nat, channel < 8 ∨ 12 ≤ channel ∨ n < 2 ∨ 64 < n →
      exec (.lensCommit tag channel n) s =
        .next { s with part := s.part.pushRefusal 0x42#8 tag .range }) ∧
    (∀ l : LensIx, 2 ≤ n → n ≤ 64 →
      let c := LensIx.slot l
      let ax := s.part.shaper.axes[c]
      let st := s.part.lens.chans[l].staging
      let next (i j : Fin 64) : Prop := i.val + 1 = j.val ∧ j.val < n
      let sound : Prop :=
        (∀ i : Fin 64, i.val < n → st[i].written = true ∧ ax.pmin ≤ st[i].count ∧
          st[i].count ≤ ax.pmax) ∧
        (∀ i j, next i j → st[i].phys < st[j].phys) ∧
        ((∀ i j, next i j → st[i].count < st[j].count) ∨
          (∀ i j, next i j → st[j].count < st[i].count))
      let points := (st.toList.take n).map fun e => (⟨e.phys, e.count⟩ : LensPair)
      let mode := s.part.lens.chans[l].mode
      let reach : Prop := s.part.lane.mode = .run → ax.present = true →
        (mode = .map ∨ mode = .follow) →
        s.part.shaper.chans[c].InWindow (fineWindow (lensWindow ax mode points)) ax.amax
      (¬ sound → exec (.lensCommit tag c.val n) s =
        .next { s with part := s.part.pushRefusal 0x42#8 tag .invalid }) ∧
      (sound → ¬ reach → exec (.lensCommit tag c.val n) s =
        .next { s with part := s.part.pushRefusal 0x42#8 tag .unreachable }) ∧
      (sound → reach →
        exec (.lensCommit tag c.val n) s = .next { s with part := (Part.pushDone { s.part with
          lens := { s.part.lens with chans := (s.part.lens.chans.set l
            { s.part.lens.chans[l] with
              pending := some points, staged := false
              staging := Vector.replicate 64 ⟨0, 0, false⟩ }) } } 0x42#8 tag) }))

/-- R115: Target Update. -/
def Obligations.TargetUpdateResult : Prop :=
  ∀ (tag : Byte) (f : TargetFields) (s : State), s.part.Room →
    (let ok : Prop := 1 ≤ f.refresh ∧ f.refresh ≤ 65535 ∧ -16777215 ≤ f.offset ∧ f.offset ≤ 16777215
     (¬ ok → exec (.targetUpdate tag f) s =
       .next { s with part := s.part.pushRefusal 0x44#8 tag .range }) ∧
     (ok → exec (.targetUpdate tag f) s = .next { s with part := (Part.pushDone { s.part with
       lens := { s.part.lens with target := (
         { present := true
           point := ⟨clampCoord f.point.x, clampCoord f.point.y, clampCoord f.point.z⟩
           refresh := f.refresh, offset := f.offset, age := 0, stale := false } : Target) } }
       0x44#8 tag) }))

/-- R106, R114: through a valid table whose physical values rise and whose counts rise or fall, the forward
map stays in the count range, the reverse map in the physical range, and both are exact at the
table's points; beyond the ends a map gives the end's value, and between two neighbouring points the
interpolated one, its quotient rounded half away from zero. R108: the effective window in counts: of a
motion axis and of a lens channel in Off or Direct the axis window; in Map and Follow the axis window
narrowed to the count range of the active table, or, where nothing is left, the single count of the end
that lies nearer to it. -/
def Obligations.MapsStayInRange : Prop :=
  (∀ t : List LensPair, 2 ≤ t.length → t.Pairwise (fun a b => a.phys < b.phys) →
    (let rising : Prop := t.Pairwise (fun a b => a.count < b.count)
     let falling : Prop := t.Pairwise (fun a b => b.count < a.count)
     rising ∨ falling →
     (∀ x : Int, (countRange t).1 ≤ forwardMap t x ∧ forwardMap t x ≤ (countRange t).2) ∧
     (∀ c : Int, (physRange t).1 ≤ reverseMap t c ∧ reverseMap t c ≤ (physRange t).2) ∧
     (∀ p ∈ t, forwardMap t p.phys = p.count ∧ reverseMap t p.count = p.phys) ∧
     (∀ a z : LensPair, t.head? = some a → t.getLast? = some z →
       (∀ x : Int, (x ≤ a.phys → forwardMap t x = a.count) ∧ (z.phys ≤ x → forwardMap t x = z.count)) ∧
       (rising → ∀ c : Int, (c ≤ a.count → reverseMap t c = a.phys) ∧
         (z.count ≤ c → reverseMap t c = z.phys)) ∧
       (falling → ∀ c : Int, (a.count ≤ c → reverseMap t c = a.phys) ∧
         (c ≤ z.count → reverseMap t c = z.phys))) ∧
     (∀ (before after : List LensPair) (a b : LensPair), t = before ++ a :: b :: after →
       (∀ x : Int, a.phys ≤ x → x < b.phys →
         RoundsTo ((b.count - a.count) * (x - a.phys)) (b.phys - a.phys) (forwardMap t x - a.count)) ∧
       (∀ c : Int, rising → a.count ≤ c → c < b.count →
         RoundsTo ((b.phys - a.phys) * (c - a.count)) (b.count - a.count) (reverseMap t c - a.phys)) ∧
       (∀ c : Int, falling → c ≤ a.count → b.count < c →
         RoundsTo ((b.phys - a.phys) * (a.count - c)) (a.count - b.count) (reverseMap t c - a.phys))) ∧
     (∀ (ax : AxisRecord) (mode : LensMode) (lo hi : Int), mode = .map ∨ mode = .follow →
       (∀ p ∈ t, lo ≤ p.count ∧ p.count ≤ hi) → (∃ p ∈ t, p.count = lo) → (∃ p ∈ t, p.count = hi) →
       ax.pmin ≤ ax.pmax →
       lensWindow ax mode t =
         if ax.pmax < lo then (ax.pmax, ax.pmax) else if hi < ax.pmin then (ax.pmin, ax.pmin)
         else (max ax.pmin lo, min ax.pmax hi)))) ∧
  (∀ (ax : AxisRecord) (t : List LensPair),
    lensWindow ax .off t = (ax.pmin, ax.pmax) ∧ lensWindow ax .direct t = (ax.pmin, ax.pmax)) ∧
  (∀ s : Part,
    (∀ a : Axis, s.window (Axis.slot a) =
      (s.shaper.axes[Axis.slot a].pmin, s.shaper.axes[Axis.slot a].pmax)) ∧
    ∀ l : LensIx, s.window (LensIx.slot l) =
      lensWindow s.shaper.axes[LensIx.slot l] s.lens.chans[l].mode s.lens.chans[l].active)

/-! ## Camera sync (chapter 7) -/

/-- R122 to R126, R128 to R130: a rising edge of the camera sync line, at the larger of the time base and its
arrival (the model's choice, log 4). Below the mask it changes nothing; in Absent
and Lost, out of range in Acquiring and Locked, and past the mask in Freewheel it is a first edge;
in range in Acquiring it shifts the intervals and the agreement run, whose third step is Locked; in
range in Locked it shifts the intervals and sets the loss time anew. An edge that completes acquisition
or is accepted in Locked has its phase point scheduled (`Part.pointed`): floor(Zavg × W / 256) after
it, a pending one expiring first, and at once where W gives no delay; what expires gives its mark
(`Part.marked`). -/
def Obligations.SyncEdges : Prop :=
  ∀ (time : Nat) (s : State),
    (let now := max s.part.now time
     let u := s.part.sync
     let first : Prop := exec (.syncEdge time) s = .next { s with part := { s.part with
       now := now
       sync := { u with
         state := .acquiring, reference := some now, agreement := 0, freewheel := 0
         lossTime := none, nextSynth := none, phasePoint := none } } }
     (u.reference = none ∨ u.state = .absent ∨ u.state = .lost → first) ∧
     ∀ r : Nat, u.reference = some r →
       let interval := now - r
       let inRange : Prop := 4000 ≤ interval ∧ interval ≤ 50000
       let zavg := (interval + u.zn) / 2
       let agreeing : Prop := ((interval : Int) - u.zn).natAbs ≤ u.zn / 64
       let run := if u.agreement ≠ 0 ∧ agreeing then u.agreement + 1 else 1
       let locks (agreement : Nat) : Prop := ∃ t : Part,
         exec (.syncEdge time) s = .next { s with part := t } ∧
         t = Part.pointed { s.part with
           now := now
           sync := { u with
             state := .locked, zprev := u.zn, zn := interval, zavg := zavg, reference := some now
             agreement := agreement, lossTime := some (now + 3 * zavg / 2) } } now ∧
         t.now = now ∧ t.sync = { u with
           state := .locked, zprev := u.zn, zn := interval, zavg := zavg, reference := some now
           agreement := agreement, lossTime := some (now + 3 * zavg / 2)
           phasePoint := if zavg * u.weight / 256 = 0 then none else some (now + zavg * u.weight / 256)
           frameCount := u.frameCount + (if u.phasePoint = none then 0 else 1) +
             (if zavg * u.weight / 256 = 0 then 1 else 0) }
       (u.state = .acquiring → ¬ inRange → first) ∧
       (u.state = .acquiring → inRange → run ≠ 3 →
         exec (.syncEdge time) s = .next { s with part := { s.part with
           now := now
           sync := { u with
             zprev := u.zn, zn := interval, zavg := zavg, reference := some now
             agreement := run } } }) ∧
       (u.state = .acquiring → inRange → run = 3 → locks 3) ∧
       (u.state = .locked ∨ u.state = .freewheel → interval < u.zavg / 4 →
         exec (.syncEdge time) s = .next { s with part := { s.part with now := now } }) ∧
       (u.state = .locked → u.zavg / 4 ≤ interval → ¬ inRange → first) ∧
       (u.state = .freewheel → u.zavg / 4 ≤ interval → first) ∧
       (u.state = .locked → u.zavg / 4 ≤ interval → inRange → locks u.agreement))

/-- R127 to R130: the loss time makes the unit Freewheel with one synthesized edge; each next synthesized
time adds one, and the eighth makes the unit Lost with no mark. Each synthesized edge has its phase point
scheduled as in `SyncEdges`, and expires at once where its time is not later than now. A phase point
that expires raises the frame count, is gone, and hands the recorder and then the player the mark with
the phase of R130 (`Part.marked`). That the time base stands at the larger of where it stood and the
timer's time is the model's choice (log 4). -/
def Obligations.SyncTimers : Prop :=
  ∀ (time : Nat) (s : State),
    (let u := s.part.sync
     let now := max s.part.now time
     let synthesized (c : Instr) (edge freewheel : Nat) (loss : Option Nat) : Prop := ∃ t : Part,
       exec c s = .next { s with part := t } ∧
       t = Part.pointed { s.part with
         now := now
         sync := { u with
           state := .freewheel, reference := some edge, freewheel := freewheel, lossTime := loss
           nextSynth := some (edge + u.zavg) } } edge ∧
       t.now = now ∧
       (let point := edge + u.zavg * u.weight / 256
        t.sync = { u with
          state := .freewheel, reference := some edge, freewheel := freewheel, lossTime := loss
          nextSynth := some (edge + u.zavg)
          phasePoint := if point ≤ now then none else some point
          frameCount := u.frameCount + (if u.phasePoint = none then 0 else 1) +
            (if point ≤ now then 1 else 0) })
     (u.state = .locked → u.lossTime = some time → ∀ r, u.reference = some r →
       synthesized .lossTime (r + u.zavg) 1 none) ∧
     (u.state = .freewheel → u.nextSynth = some time → u.freewheel = 7 →
       exec .edgeSynthesis s = .next { s with part := { s.part with
         now := now
         sync := { u with
           state := .lost, freewheel := 8, nextSynth := none, phasePoint := none } } }) ∧
     (u.state = .freewheel → u.nextSynth = some time → u.freewheel ≠ 7 →
       synthesized .edgeSynthesis time (u.freewheel + 1) u.lossTime) ∧
     (u.phasePoint = some time → ∃ t : Part,
       exec .phasePointExpiry s = .next { s with part := t } ∧
       t = Part.marked { s.part with now := now } ∧ t.now = now ∧
       t.sync = { u with phasePoint := none, frameCount := u.frameCount + 1 }))

/-! ## The take array (chapter 8) -/

/-- R148, R150, R151, R153: Take Erase, Take Lock, Protection Freeze and Take Read, each with its refusals in
order. An erase leaves its slot Retiring, is answered Started and places the retire of its chain-0 bay;
a lock leaves its slot's lock pending and places the lock program of its chain-0 bay, and a read of a
page that the slot's chain holds is placed, their replies Waiting; no other slot changes. What is
placed stands in the lane's list or is the operation in progress: it has arrived at the tail of the
lane's list, and the controller has acted on the arrival (`ControllerChooses`). -/
def Obligations.TakeRequests : Prop :=
  ∀ (tag : Byte) (s : State), s.part.Room →
    (let occupied : Prop := s.part.array.scanComplete = false ∨ s.part.array.clearing = true
     let code (c : Instr) (k : Byte) (r : ResultCode) : Prop :=
       exec c s = .next { s with part := s.part.pushRefusal k tag r }
     let waits (k : Byte) (t : Part) : Prop :=
       t.lane.tail = some ⟨s.part.lane.nextTicket, tag, k, none⟩
     let arrived (t : Part) (slots : Vector DirectorySlot 64) (jobs : List Job) : Prop :=
       s.part.LaneArrival t { s.part.array with
         directory := slots, laneJobs := s.part.array.laneJobs ++ jobs }
     (∀ n : Nat, 64 ≤ n → code (.takeErase tag n) 0x62#8 .range ∧
       code (.takeLock tag n) 0x63#8 .range ∧ ∀ page, code (.takeRead tag n page) 0x67#8 .range) ∧
     exec (.protectionFreeze tag) s = .next { s with part := (Part.pushDone { s.part with
       array := { s.part.array with freeze := true } } 0x64#8 tag) } ∧
     (∀ i : DirIx,
       let d := s.part.array.directory[i]
       let finished : Prop := d.state = .closed ∨ d.state = .truncated
       let named : Prop := ∃ c : CueIx, s.part.player.cues[c].owner = .part ∧
         s.part.player.cues[c].slot = i
       (occupied → code (.takeErase tag i.val) 0x62#8 .busy ∧
         code (.takeLock tag i.val) 0x63#8 .busy) ∧
       (¬ occupied → ¬ finished → code (.takeErase tag i.val) 0x62#8 .wrongState) ∧
       (¬ occupied → finished → d.locked = true → code (.takeErase tag i.val) 0x62#8 .locked) ∧
       (¬ occupied → finished → d.locked = false → d.lockPending = true ∨ named →
         code (.takeErase tag i.val) 0x62#8 .busy) ∧
       (¬ occupied → finished → d.locked = false → d.lockPending = false → ¬ named →
         ∃ t : Part, exec (.takeErase tag i.val) s = .next { s with part := t } ∧
           t.lane.tail =
             some ⟨s.part.lane.nextTicket, tag, 0x62#8, some ⟨.started, []⟩⟩ ∧
           t.array.directory = s.part.array.directory.set i { d with state := .retiring } ∧
           (∀ bay, d.bays.head? = some bay → t.array.LaneHolds (.retire i bay)) ∧
           arrived t (s.part.array.directory.set i { d with state := .retiring })
             (d.bays.head?.toList.map fun bay => .retire i bay) ∧
           t.array.memory = s.part.array.memory) ∧
       (¬ occupied → s.part.array.freeze = true → code (.takeLock tag i.val) 0x63#8 .frozen) ∧
       (¬ occupied → s.part.array.freeze = false → ¬ finished →
         code (.takeLock tag i.val) 0x63#8 .wrongState) ∧
       (¬ occupied → s.part.array.freeze = false → finished → d.lockPending = true →
         code (.takeLock tag i.val) 0x63#8 .busy) ∧
       (¬ occupied → s.part.array.freeze = false → finished → d.lockPending = false →
         d.locked = true → exec (.takeLock tag i.val) s =
           .next { s with part := s.part.pushDone 0x63#8 tag }) ∧
       (¬ occupied → s.part.array.freeze = false → finished → d.lockPending = false →
         d.locked = false → ∃ t : Part,
         exec (.takeLock tag i.val) s = .next { s with part := t } ∧ waits 0x63#8 t ∧
         t.array.directory = s.part.array.directory.set i { d with lockPending := true } ∧
         (∀ bay, d.bays.head? = some bay →
           t.array.LaneHolds (.lock s.part.lane.nextTicket i bay)) ∧
         arrived t (s.part.array.directory.set i { d with lockPending := true })
           (d.bays.head?.toList.map fun bay => .lock s.part.lane.nextTicket i bay) ∧
         t.array.memory = s.part.array.memory) ∧
       (∀ page : Nat,
         let recorded : Prop := d.state = .recording ∧
           (s.part.recorder.bufferA.page = some page ∨ s.part.recorder.bufferB.page = some page)
         let imported : Prop := d.state = .importing ∧ d.dataPages ≤ page ∧ page < d.nextPage
         let c : Instr := .takeRead tag i.val page
         (130559 < page → code c 0x67#8 .range) ∧
         (page ≤ 130559 → s.part.array.scanComplete = false → code c 0x67#8 .busy) ∧
         (page ≤ 130559 → s.part.array.scanComplete = true →
           (d.state = .empty ∨ d.state = .retiring → code c 0x67#8 .wrongState) ∧
           (recorded ∨ imported → code c 0x67#8 .notYet) ∧
           (d.state ≠ .empty → d.state ≠ .retiring → ¬ recorded → ¬ imported →
             d.dataPages ≤ page → code c 0x67#8 .range) ∧
           (d.state ≠ .empty → d.state ≠ .retiring → ¬ recorded → ¬ imported →
             page < d.dataPages → page / 255 < d.bays.length → ∃ t : Part,
             exec c s = .next { s with part := t } ∧ waits 0x67#8 t ∧
             t.array.LaneHolds (.takeRead s.part.lane.nextTicket i page) ∧
             arrived t s.part.array.directory [.takeRead s.part.lane.nextTicket i page] ∧
             t.array.directory = s.part.array.directory ∧
             t.array.memory = s.part.array.memory)))))

/-- R152: Array Clear: its refusals, and an accepted clear, answered Started, which makes every take
Retiring, locked or not, and an import without bays Empty, and is under way while a slot is
Retiring: the retire of the lowest such slot's chain-0 bay arrives at the tail of the lane's list, and with
no such slot the clear ends at acceptance. A retire of a clear that completes changes only its retire byte and places the next Retiring
slot's retire; the last frees every Retiring slot's bays and empties the slots, and the clear is over.
That an Importing slot made Retiring keeps the end reason none is the model's choice (log 51). -/
def Obligations.ArrayClearResult : Prop :=
  (∀ (tag : Byte) (s : State), s.part.Room →
    (let code (r : ResultCode) : Prop := exec (.arrayClear tag) s =
       .next { s with part := s.part.pushRefusal 0x65#8 tag r }
     let busy : Prop := s.part.array.clearing = true ∨ s.part.array.laneJobs ≠ [] ∨
       (∃ j w, s.part.array.operation = some (.job j w) ∧ j.ofLane = true) ∨
       ∃ i : DirIx, s.part.array.directory[i].state = .recording ∨
         s.part.array.directory[i].state = .retiring
     (s.part.lane.mode = .run → code .wrongMode) ∧
     (s.part.lane.mode = .setup → s.part.array.scanComplete = false → code .busy) ∧
     (s.part.lane.mode = .setup → s.part.array.scanComplete = true →
       s.part.array.freeze = true → code .frozen) ∧
     (s.part.lane.mode = .setup → s.part.array.scanComplete = true →
       s.part.array.freeze = false → busy → code .busy) ∧
     (s.part.lane.mode = .setup → s.part.array.scanComplete = true →
       s.part.array.freeze = false → ¬ busy → ∃ t : Part,
       exec (.arrayClear tag) s = .next { s with part := t } ∧
       t.lane.tail = some ⟨s.part.lane.nextTicket, tag, 0x65#8, some ⟨.started, []⟩⟩ ∧
       t.array.memory = s.part.array.memory ∧
       (∀ i : DirIx,
         let d := s.part.array.directory[i]
         t.array.directory[i] =
           if d.state = .importing ∧ d.bays = [] then DirectorySlot.reset
           else if d.state = .empty then d else { d with state := .retiring }) ∧
       ((∀ i : DirIx, s.part.array.directory[i].state = .closed ∨
           s.part.array.directory[i].state = .truncated → s.part.array.directory[i].bays ≠ []) →
         (t.array.clearing = true ↔ ∃ i : DirIx, t.array.directory[i].state = .retiring)) ∧
       (let first (i : DirIx) (b : Bay) : Prop := t.array.directory[i].state = .retiring ∧
          t.array.directory[i].bays.head? = some b
        (∀ i b, first i b → (∀ k c, first k c → i.val ≤ k.val) →
          t.array.clearing = true ∧ t.array.LaneHolds (.clearRetire i b) ∧
          s.part.LaneArrival t { s.part.array with
            directory := t.array.directory, clearing := true
            laneJobs := s.part.array.laneJobs ++ [.clearRetire i b] }) ∧
        ((∀ i b, ¬ first i b) → t.array =
          { s.part.array with directory := t.array.directory, clearing := false }))))) ∧
  (∀ (s : State) (i : DirIx) (bay : Bay) (w : Bool),
     s.part.array.operation = some (.job (.clearRetire i bay) w) →
     (let a := s.part.array
      let next (j : DirIx) (b : Bay) : Prop := i.val < j.val ∧ a.directory[j].state = .retiring ∧
        a.directory[j].bays.head? = some b
      let freed := a.dirty ++ (List.finRange 64).flatMap fun j : DirIx =>
        if a.directory[j].state = .retiring then a.directory[j].bays else []
      ∃ t : Part, exec .pageProgramComplete s = .next { s with part := t } ∧
        (∀ x, x ≠ bay.val * 65536 + 64 → t.array.memory.read x = a.memory.read x) ∧
        t.array.memory.read (bay.val * 65536 + 64) ≠ 0xFF#8 ∧
        (∀ j b, next j b → (∀ k c, next k c → j.val ≤ k.val) →
          t.array.directory = a.directory ∧ t.array.clearing = a.clearing ∧
          t.array.LaneHolds (.clearRetire j b) ∧
          t = Part.choose { s.part with array := { a with
            memory := t.array.memory, operation := none
            laneJobs := a.laneJobs ++ [.clearRetire j b] } }) ∧
        ((∀ j b, ¬ next j b) → t.array.clearing = false ∧
          t = Part.choose { s.part with array := { a with
            memory := t.array.memory, directory := t.array.directory, operation := none
            clearing := false, dirty := freed } } ∧
          (∀ j : DirIx, t.array.directory[j] =
            if a.directory[j].state = .retiring then DirectorySlot.reset else a.directory[j]) ∧
          (t.array.dirty = freed ∨
            ∃ b, freed = b :: t.array.dirty ∧ t.array.operation = some (.erase b)))))

/-- R134, R193: how a page's bytes are read as entries. R154, R155, R156: Take Import, Page Write and Import
Close, with their refusals in order; the entries of a page are refused where they cannot be read, where
there is none, where a Hold is 0 or comes before any Sample of the take, where an entry follows End, or
where an earlier page held End. A page that lies in the chain its slot has, or opens a new bay, takes the next data page index and leaves its
reply Waiting; its data program is placed in the lane's list (or in progress), a new bay's header
program too: they arrive at the tail of the list in that order, and the controller acts on the arrival
(`ControllerChooses`). -/
def Obligations.ImportRequests : Prop :=
  (∀ (c : Nat) (bs : List Byte),
    (let kind := byteAt bs 0
     let size : Nat := if kind = 1#8 then 4 + 4 * c else if kind = 2#8 then 4
       else if kind = 3#8 then 12 else if kind = 4#8 then 8 else if kind = 5#8 then 4 else 0
     let entry : Entry := if kind = 1#8 then .sample ((List.range c).map fun n => fieldInt bs (4 + 4 * n) 4)
       else if kind = 2#8 then .hold (fieldNat bs 2 2)
       else if kind = 3#8 then .mark (fieldNat bs 2 2) (fieldNat bs 4 4) (fieldNat bs 8 4)
       else if kind = 4#8 then .gap (fieldNat bs 4 4) else .finish
     let ends : Prop := bs = [] ∨ kind = 0xFF#8
     (ends → parseEntries c bs = some []) ∧
     (¬ ends → size = 0 ∨ bs.length < size → parseEntries c bs = none) ∧
     (¬ ends → size ≠ 0 → size ≤ bs.length →
       parseEntries c bs = (parseEntries c (bs.drop size)).map (entry :: ·)))) ∧
  (∀ es : List Entry, (hasEnd es = true ↔ Entry.finish ∈ es) ∧
    (hasSample es = true ↔ ∃ values, Entry.sample values ∈ es)) ∧
  ∀ (tag : Byte) (i : DirIx) (s : State), s.part.Room →
    (let d := s.part.array.directory[i]
     let occupied : Prop := s.part.array.scanComplete = false ∨ s.part.array.clearing = true
     let code (c : Instr) (k : Byte) (r : ResultCode) : Prop :=
       exec c s = .next { s with part := s.part.pushRefusal k tag r }
     (∀ f : ImportFields,
       let ok : Prop := f.slot < 64 ∧ f.mask ≠ 0 ∧ f.mask.toNat < 4096 ∧ 1 ≤ f.divisor ∧
         f.divisor ≤ 16 ∧ f.modes[0] ≤ 3 ∧ f.modes[1] ≤ 2 ∧ f.modes[2] ≤ 2 ∧ f.modes[3] ≤ 2
       let c : Instr := .takeImport tag f
       (¬ ok → code c 0x68#8 .range) ∧
       (ok → occupied → code c 0x68#8 .busy) ∧
       (ok → ¬ occupied → f.slot = i.val →
         (d.state ≠ .empty → code c 0x68#8 .wrongState) ∧
         (d.state = .empty → s.part.array.serial = 0xFFFFFFFF#32 → code c 0x68#8 .noSpace) ∧
         (d.state = .empty → s.part.array.serial ≠ 0xFFFFFFFF#32 →
           ∃ modes : Vector LensMode 4, modes.map (·.code) = f.modes ∧
           exec c s = .next { s with part := (Part.pushDone { s.part with
             array := { s.part.array with
               serial := s.part.array.serial + 1
               directory := s.part.array.directory.set i { DirectorySlot.reset with
                 state := .importing
                 info := ⟨s.part.array.serial, f.mask.setWidth 12, f.divisor, modes, 0⟩ } } }
             0x68#8 tag) }))) ∧
     (∀ page : List Byte,
       let c : Instr := .pageWrite tag i.val page
       let needs : Prop := d.nextPage % 255 = 0
       let entries := parseEntries (Mask.size d.info.mask) page
       let barred (es : List Entry) : Prop := es = [] ∨ d.endAccepted = true ∨ Entry.hold 0 ∈ es ∨
         (d.sampleSeen = false ∧ ∃ before n after, es = before ++ .hold n :: after ∧
           ∀ values, Entry.sample values ∉ before) ∨
         ∃ before e after, es = before ++ .finish :: e :: after
       (∀ n, 64 ≤ n → code (.pageWrite tag n page) 0x69#8 .range) ∧
       (page.length ≠ 254 → code c 0x69#8 .invalid) ∧
       (page.length = 254 → occupied → code c 0x69#8 .busy) ∧
       (page.length = 254 → ¬ occupied → d.state ≠ .importing → code c 0x69#8 .wrongState) ∧
       (page.length = 254 → ¬ occupied → d.state = .importing →
         (entries = none → code c 0x69#8 .invalid) ∧
         (∀ es, entries = some es → barred es → code c 0x69#8 .invalid) ∧
         (∀ es, entries = some es → ¬ barred es →
           (needs → s.part.array.erased = [] → code c 0x69#8 .noSpace) ∧
           (needs ∧ s.part.array.erased ≠ [] ∨ ¬ needs →
             d.bays.length = (d.nextPage + 254) / 255 → ∃ t : Part,
             exec c s = .next { s with part := t } ∧
             t.lane.tail = some ⟨s.part.lane.nextTicket, tag, 0x69#8, none⟩ ∧
             t.array.LaneHolds (.writeData s.part.lane.nextTicket i d.nextPage page) ∧
             (needs → ∀ bay, s.part.array.erased.head? = some bay →
               t.array.LaneHolds (.writeHeader bay ⟨i, d.bays.length, d.info⟩)) ∧
             (let bays := if needs then s.part.array.erased.head?.toList else []
              s.part.LaneArrival t { s.part.array with
                erased := if needs then s.part.array.erased.tail else s.part.array.erased
                directory := s.part.array.directory.set i t.array.directory[i]
                laneJobs := s.part.array.laneJobs ++
                  (bays.map fun bay => .writeHeader bay ⟨i, d.bays.length, d.info⟩) ++
                  [.writeData s.part.lane.nextTicket i d.nextPage page] }) ∧
             t.array.memory = s.part.array.memory ∧
             t.array.directory[i] = { d with
               bays := (if needs then d.bays ++ s.part.array.erased.head?.toList else d.bays)
               nextPage := d.nextPage + 1
               endAccepted := d.endAccepted || hasEnd es
               sampleSeen := d.sampleSeen || hasSample es } ∧
             ∀ j : DirIx, j ≠ i → t.array.directory[j] = s.part.array.directory[j])))) ∧
     (let c : Instr := .importClose tag i.val
      (∀ n, 64 ≤ n → code (.importClose tag n) 0x6A#8 .range) ∧
      (occupied → code c 0x6A#8 .busy) ∧
      (¬ occupied → d.state ≠ .importing → code c 0x6A#8 .wrongState) ∧
      (¬ occupied → d.state = .importing → d.dataPages < d.nextPage → code c 0x6A#8 .busy) ∧
      (¬ occupied → d.state = .importing → d.nextPage ≤ d.dataPages → d.endAccepted = false →
        code c 0x6A#8 .invalid) ∧
      (¬ occupied → d.state = .importing → d.nextPage ≤ d.dataPages → d.endAccepted = true →
        exec c s = .next { s with part := (Part.pushDone { s.part with
          array := { s.part.array with
            directory := s.part.array.directory.set i { d with
              state := .closed, endReason := .requested } } } 0x6A#8 tag) })))

/-- R139, R141 to R144, R149, R150, R153, R155: what a completed operation leaves. A page read answers its Take
Read; a data program, a lock and a retire program their page, their lock byte and their retire byte,
answer their requests and change their slot, a data program counting its page's entries in, and a retire
frees its bay and places the next; a header program leaves its header. After every one of them no
operation is in progress and the controller chooses (`ControllerChooses`). A bay erase leaves 0xFF but for
the marker, its bay at the tail of the erased queue unless a Stalled recorder waits for it; a header page that the scan
reads joins its class, the last one fills the directory, each take's chain running from index 0 up to the
first index that no owned bay of its header has, and a data page is counted or ends its take, up to the
end of the scan, which leaves the dirty queue in ascending bay number and the controller choosing. The model's choices (log 26): the takes' pages are read in ascending slot order; of
bays with one chain index the one read first is taken; the serial after the scan is 32 bits wide, so it
wraps to 0 above 4,294,967,295. The recorder's programs are in `RecorderRequests`, the clear's retires in
`ArrayClearResult`, the player's reads in `PlayerPolls`. -/
def Obligations.ArrayCompletions : Prop :=
  ∀ s : State,
    (let a := s.part.array
     let waiting (n : Nat) (e : ReplyEntry) : Prop :=
       e ∈ s.part.lane.queue ∧ e.ticket = n ∧ e.answer = none
     let chosen (t : Part) (after : TakeArray) : Prop :=
       ∃ lane, t = Part.choose { s.part with lane := lane, array := after }
     let counted (d : DirectorySlot) (page : List Byte) : DirectorySlot :=
       let es := (parseEntries (Mask.size d.info.mask) page).getD []
       { d with
         dataPages := d.dataPages + 1
         samples := d.samples + (es.map Entry.samples).sum
         marks := d.marks + (es.map Entry.marks).sum
         gaps := d.gaps + (es.map Entry.gaps).sum }
     (∀ n i k w, a.operation = some (.job (.takeRead n i k) w) → ∃ t : Part,
       exec .pageReadComplete s = .next { s with part := t } ∧ t.array.memory = a.memory ∧
       chosen t { a with operation := none } ∧
       ∀ e, waiting n e → { e with answer := (match a.readData i k with
         | some bytes => some ⟨.done, bytes⟩
         | none => some ⟨.invalid, []⟩) } ∈ t.lane.queue) ∧
     (∀ n i k es w x, a.operation = some (.job (.writeData n i k es) w) →
       a.directory[i].dataAddress k = some x → ∃ t : Part,
       exec .pageProgramComplete s = .next { s with part := t } ∧
       t.array.memory = a.memory.program x (dataPageBytes es) ∧
       t.array.directory = a.directory.set i (counted a.directory[i] es) ∧
       chosen t { a with memory := t.array.memory, directory := t.array.directory, operation := none } ∧
       ∀ e, waiting n e → { e with answer := some ⟨.done, []⟩ } ∈ t.lane.queue) ∧
     (∀ n i bay w, a.operation = some (.job (.lock n i bay) w) → ∃ t : Part,
       exec .pageProgramComplete s = .next { s with part := t } ∧
       t.array.directory = a.directory.set i { a.directory[i] with
         locked := true, lockPending := false } ∧
       (∀ x, x ≠ bay.val * 65536 + 65 → t.array.memory.read x = a.memory.read x) ∧
       t.array.memory.read (bay.val * 65536 + 65) ≠ 0xFF#8 ∧
       chosen t { a with memory := t.array.memory, directory := t.array.directory, operation := none } ∧
       ∀ e, waiting n e → { e with answer := some ⟨.done, []⟩ } ∈ t.lane.queue) ∧
     (∀ i bay w, a.operation = some (.job (.retire i bay) w) → ∃ t : Part,
       exec .pageProgramComplete s = .next { s with part := t } ∧
       (∀ x, x ≠ bay.val * 65536 + 64 → t.array.memory.read x = a.memory.read x) ∧
       t.array.memory.read (bay.val * 65536 + 64) ≠ 0xFF#8 ∧
       (let left := a.directory[i].bays.filter fun b => decide (b ≠ bay)
        t.array.directory = a.directory.set i
          (if left = [] then DirectorySlot.reset else { a.directory[i] with bays := left }) ∧
        (∀ next, left.head? = some next → t.array.LaneHolds (.retire i next)) ∧
        chosen t { a with
          memory := t.array.memory, directory := t.array.directory, operation := none
          dirty := a.dirty ++ [bay]
          laneJobs := a.laneJobs ++ (left.head?.toList.map fun next => .retire i next) } ∧
        (t.array.dirty = a.dirty ++ [bay] ∨
          ∃ b, a.dirty ++ [bay] = b :: t.array.dirty ∧ t.array.operation = some (.erase b)))) ∧
     (∀ bay h w, a.operation = some (.job (.writeHeader bay h) w) ∨
         a.operation = some (.job (.recorderHeader bay h) w) → ∃ t : Part,
       exec .pageProgramComplete s = .next { s with part := t } ∧
       t.array.memory = a.memory.program (bay.val * 65536 + 16) h.bytes ∧
       (a.operation = some (.job (.writeHeader bay h) w) →
         chosen t { a with memory := t.array.memory, operation := none }) ∧
       t = Part.choose { s.part with recorder := t.recorder, array := { a with
         memory := t.array.memory, directory := t.array.directory, operation := none } }) ∧
     (∀ j w, a.operation = some (.job j w) → ∃ x : Part, x.array.operation = none ∧
       exec (if j.isRead then .pageReadComplete else .pageProgramComplete) s =
         .next { s with part := x.choose }) ∧
     (∀ bay, a.memory.wf = true → a.operation = some (.erase bay) → ∃ t : Part,
       exec .bayEraseComplete s = .next { s with part := t } ∧
       (s.part.recorder.state ≠ .stalled ∨ s.part.recorder.reserved ≠ none ∨
           (∀ f, s.part.recorder.filling = some f →
             (((s.part.recorder.buffer f).page.getD 0) + 1) % 255 ≠ 0) →
         t.array.erased = a.erased ++ [bay] ∧
         chosen t { a with
           memory := t.array.memory, operation := none, erased := a.erased ++ [bay] }) ∧
       t.array.memory.read (bay.val * 65536) = 0xA5#8 ∧
       (∀ x, bay.val * 65536 < x → x < bay.val * 65536 + 65536 →
         t.array.memory.read x = 0xFF#8) ∧
       ∀ x, x < bay.val * 65536 ∨ bay.val * 65536 + 65536 ≤ x →
         t.array.memory.read x = a.memory.read x) ∧
     (let done' (erased : List Bay) (max : Option (BitVec 32)) (t : Part) : Prop :=
        t.array.scan = none ∧ t.array.scanComplete = true ∧ t.array.erased = erased ∧
        t.array.serial = (match max with
          | some x => x + 1
          | none => 0) ∧
        (∃ dirty : List Bay, dirty.Pairwise (fun x y => x.val < y.val) ∧
          (∀ b : Bay, b ∈ dirty ↔ b ∉ erased ∧ ∀ i : DirIx, b ∉ t.array.directory[i].bays) ∧
          t = Part.choose { s.part with array := { a with
            directory := t.array.directory, erased := erased, dirty := dirty
            serial := t.array.serial, scanComplete := true, scan := none } }) ∧
        (a.operation = none → a.suspended = none → ∀ b : Bay,
          (b ∈ t.array.dirty ∨ t.array.operation = some (.erase b)) ↔
            b ∉ erased ∧ ∀ i : DirIx, b ∉ t.array.directory[i].bays)
      (∀ (sc : Scan) (n : Bay), a.scan = some sc → sc.phase = .headers n.val →
        ∃ (erased : List Bay) (owned : List ScannedBay) (max : Option (BitVec 32)) (t : Part),
        exec .scanReadComplete s = .next { s with part := t } ∧
        (n.val < 511 → t = { s.part with array := { a with
          scan := some ⟨.headers (n.val + 1), erased, owned, max⟩ } }) ∧
        (let page := a.memory.readPage n 0
         (byteAt page 0 ≠ 0xA5#8 → erased = sc.erased ∧ owned = sc.owned) ∧
         (byteAt page 0 = 0xA5#8 → (page.drop 1).all (fun b => b == 0xFF#8) = true →
           erased = sc.erased ++ [n] ∧ owned = sc.owned) ∧
         (byteAt page 0 = 0xA5#8 → (page.drop 1).all (fun b => b == 0xFF#8) = false →
           erased = sc.erased ∧
           (byteAt page 64 ≠ 0xFF#8 ∨ headerOfPage page = none → owned = sc.owned) ∧
           ∀ h, byteAt page 64 = 0xFF#8 → headerOfPage page = some h →
             owned = sc.owned ++ [⟨n, h, decide (byteAt page 65 ≠ 0xFF#8)⟩]) ∧
         (headerOfPage page = none → max = sc.maxSerial) ∧
         (∀ h, headerOfPage page = some h → max = some (match sc.maxSerial with
           | none => h.info.serial
           | some x => if x.toNat < h.info.serial.toNat then h.info.serial else x))) ∧
        (n.val = 511 →
          (let leads (i : DirIx) (b : ScannedBay) : Prop := b ∈ owned ∧ b.header.slot = i ∧
             owned.find? (fun c => decide (c.header.info.serial = b.header.info.serial) &&
               decide (c.header.chain = 0)) = some b
           t.array.memory = a.memory ∧
           (∀ i : DirIx,
             let d := t.array.directory[i]
             (d = DirectorySlot.reset ∧ ∀ b, ¬ leads i b) ∨
             ∃ b, leads i b ∧
               (∀ c, leads i c → c.header.info.serial.toNat ≤ b.header.info.serial.toNat) ∧
               d = { DirectorySlot.reset with
                 state := .truncated, info := b.header.info, bays := d.bays
                 locked := b.lockSet, endReason := .scan } ∧
               d.bays.head? = some b.bay ∧
               (let next (k : Nat) : Option ScannedBay :=
                  owned.find? fun c => decide (c.header = { b.header with chain := k })
                (∀ k bay, d.bays[k]? = some bay → ∃ c, next k = some c ∧ c.bay = bay) ∧
                (d.bays.length < 512 → next d.bays.length = none))) ∧
           (∀ i : DirIx, t.array.directory[i].state ≠ .empty →
             (∀ j : DirIx, j.val < i.val → t.array.directory[j].state = .empty) →
             ∃ rest, t.array.scan = some ⟨.pages i 0 false rest, erased, owned, max⟩ ∧
               rest.Pairwise (fun x y => x.val < y.val) ∧
               ∀ j : DirIx, j ∈ rest ↔ i.val < j.val ∧ t.array.directory[j].state ≠ .empty) ∧
           ((∀ i : DirIx, t.array.directory[i].state = .empty) → done' erased max t)))) ∧
      (∀ (sc : Scan) (i : DirIx) (page : Nat) (last : Bool) (rest : List DirIx), a.scan = some sc →
        sc.phase = .pages i page last rest →
        (let d := a.directory[i]
         let good (es : List Entry) : Prop := ∃ l, d.locate page = some l ∧
           (a.memory.readPage l.1 l.2).all (fun b => b == 0xFF#8) = false ∧
           pageCrcGood (a.memory.readPage l.1 l.2) = true ∧
           parseEntries (Mask.size d.info.mask) (bytesAt (a.memory.readPage l.1 l.2) 0 254) = some es
         let counted (es : List Entry) : DirectorySlot := { d with
           dataPages := d.dataPages + 1
           samples := d.samples + (es.map Entry.samples).sum
           marks := d.marks + (es.map Entry.marks).sum
           gaps := d.gaps + (es.map Entry.gaps).sum }
         let ended (x : DirectorySlot) (hasLast : Bool) : DirectorySlot := { x with
           state := (if hasLast then .closed else .truncated)
           bays := x.bays.take (max 1 ((x.dataPages + 254) / 255)) }
         (∀ es, good es → page + 1 < d.bays.length * 255 →
           exec .scanReadComplete s = .next { s with part := { s.part with array := { a with
             directory := a.directory.set i (counted es)
             scan := some { sc with phase := .pages i (page + 1) (hasEnd es) rest } } } }) ∧
         (∀ x : DirectorySlot,
           ((∀ es, ¬ good es) ∧ x = ended d last) ∨
             (∃ es, good es ∧ d.bays.length * 255 ≤ page + 1 ∧ x = ended (counted es) (hasEnd es)) →
           ∃ t : Part, exec .scanReadComplete s = .next { s with part := t } ∧
             t.array.directory = a.directory.set i x ∧ t.array.memory = a.memory ∧
             (∀ next more, rest = next :: more →
               t.array.scan = some { sc with phase := .pages next 0 false more }) ∧
             (rest = [] → done' sc.erased sc.maxSerial t))))))

/-- R139 to R141: the controller's choice, on every part: with an operation in progress or the scan running it
makes none; else it starts the oldest request of the player, then of the recorder, then of the lane, or
completes it as not available and chooses again; with none waiting it resumes the suspended erase, or
starts the erase of the head of the dirty queue, or rests. A request that arrives waits for a read or
a program in progress, suspends an erase in progress, and is chosen at once where the array is
Idle. No step leaves the array Idle with work to do, nor an erase in progress with a request waiting
(`Part.WorkLaw`). That a Page Write's and a Take Lock's program not available is answered WrongState is
the model's choice (log 30). -/
def Obligations.ControllerChooses : Prop :=
  (∀ p : Part,
    (let a := p.array
     (a.operation ≠ none ∨ a.scan ≠ none → p.choose = p) ∧
     (a.operation = none → a.scan = none →
       (∀ (j : Job) (more : List Job), a.playerJobs ++ a.recorderJobs ++ a.laneJobs = j :: more →
         let taken : Part := { p with array := { a with
           playerJobs := a.playerJobs.tail
           recorderJobs := if a.playerJobs = [] then a.recorderJobs.tail else a.recorderJobs
           laneJobs := if a.playerJobs = [] ∧ a.recorderJobs = [] then a.laneJobs.tail
             else a.laneJobs } }
         (a.Available j → p.choose = { taken with array := { taken.array with
           operation := some (.job j false) } }) ∧
         (¬ a.Available j → p.choose = (match j with
           | .playerRead _ k => taken.playerReadDone k none
           | .takeRead n _ _ => taken.answer n .wrongState []
           | .writeData n _ _ _ => taken.answer n .wrongState []
           | .lock n _ _ => taken.answer n .wrongState []
           | .recorderHeader _ _ => taken
           | .recorderData _ _ _ _ => taken
           | .writeHeader _ _ => taken
           | .retire _ _ => taken
           | .clearRetire _ _ => taken).choose)) ∧
       (a.playerJobs = [] → a.recorderJobs = [] → a.laneJobs = [] → p.choose = { p with array :=
         (match a.suspended, a.dirty with
          | some bay, _ => { a with operation := some (.erase bay), suspended := none }
          | none, bay :: rest => { a with operation := some (.erase bay), dirty := rest }
          | none, [] => a) })) ∧
     (∀ j w, a.operation = some (.job j w) → p.kick = p) ∧
     (∀ bay, a.operation = some (.erase bay) →
       (a.playerJobs = [] ∧ a.recorderJobs = [] ∧ a.laneJobs = [] → p.kick = p) ∧
       (¬ (a.playerJobs = [] ∧ a.recorderJobs = [] ∧ a.laneJobs = []) → p.kick =
         Part.choose { p with array := { a with operation := none, suspended := some bay } })) ∧
     (a.operation = none → p.kick = p.choose))) ∧
  (∀ s t : State, s.part.WorkLaw → step s = .next t → t.part.WorkLaw)

/-! ## The recorder (chapter 9) -/

/-- R159, R169, R170: Record Start, its refusals in order and the take it opens, the recorder Armed with the
head of the erased queue as its chain-0 bay; and Record Stop in every recorder state. Then the
recorder's own work, each part of it on every state: the start of the record clock (R160), its count
and the sample at a sample instant (R161, R162), kept or missed (R166); a mark (R163); the turn of a
page short of headroom (R164, R165), the entries and the page that end a take (R168); and what the
completion of its programs, or of an erase while it is stalled for a bay, leaves (R166 to R168). The
model's choices: the sample of a lens channel in Off (log 52); and that a stall whose turn must still
wait at such a completion goes on, also where the erased and the dirty queue are both empty by then
(log 33). -/
def Obligations.RecorderRequests : Prop :=
  (∀ (tag : Byte) (s : State), s.part.Room →
    (let code (c : Instr) (k : Byte) (r : ResultCode) : Prop :=
       exec c s = .next { s with part := s.part.pushRefusal k tag r }
     let r := s.part.recorder
     (∀ f : RecordStartFields,
       let c : Instr := .recordStart tag f
       let ready : Prop := s.part.array.scanComplete = true ∧ s.part.lane.mode = .run
       let ok : Prop := f.slot < 64 ∧ f.mask ≠ 0 ∧ f.mask.toNat < 4096 ∧ f.trigger ≤ 2 ∧
         1 ≤ f.divisor ∧ f.divisor ≤ 16 ∧
         ∀ c : Slot, f.mask.getLsbD c.val = true → s.part.shaper.axes[c].present = true
       let driven : Prop := ∀ l : LensIx, f.mask.getLsbD (l.val + 8) = true →
         s.part.lens.chans[l].mode ≠ .off
       (s.part.array.scanComplete = false → code c 0x60#8 .busy) ∧
       (s.part.array.scanComplete = true → s.part.lane.mode = .setup → code c 0x60#8 .wrongMode) ∧
       (ready → ¬ ok → code c 0x60#8 .range) ∧
       (ready → ok → ¬ driven → code c 0x60#8 .invalid) ∧
       (ready → ok → driven → s.part.seq.state ≠ .running → code c 0x60#8 .wrongState) ∧
       (ready → ok → driven → s.part.seq.state = .running → r.state ≠ .idle → code c 0x60#8 .busy) ∧
       (ready → ok → driven → s.part.seq.state = .running → r.state = .idle →
         ∀ i : DirIx, f.slot = i.val →
         let d := s.part.array.directory[i]
         (d.state ≠ .empty → code c 0x60#8 .wrongState) ∧
         (d.state = .empty → s.part.array.serial = 0xFFFFFFFF#32 ∨ s.part.array.erased = [] →
           code c 0x60#8 .noSpace) ∧
         (d.state = .empty → s.part.array.serial ≠ 0xFFFFFFFF#32 →
           ∀ bay rest, s.part.array.erased = bay :: rest → ∃ trigger : RecorderTrigger,
           RecorderTrigger.ofCode f.trigger = some trigger ∧
           exec c s = .next { s with part := (Part.pushDone { s.part with
             array := { s.part.array with
               serial := s.part.array.serial + 1
               erased := rest
               directory := s.part.array.directory.set i { DirectorySlot.reset with
                 state := .recording
                 bays := [bay]
                 info := ⟨s.part.array.serial, f.mask.setWidth 12, f.divisor,
                   Vector.ofFn fun l : LensIx => s.part.lens.chans[l].mode, 0⟩ } }
             recorder := { r with
               state := .armed, slot := some i, trigger := trigger, frameSeen := false
               whole := true, pendingHold := 0, bufferA := ⟨.free, none, []⟩
               bufferB := ⟨.free, none, []⟩, nextPage := 0, reserved := none, stallCount := 0
               missed := 0, overflow := false } } 0x60#8 tag) }))) ∧
     (r.state = .idle → code (.recordStop tag) 0x61#8 .wrongState) ∧
     (r.state = .closing → exec (.recordStop tag) s =
       .next { s with part := s.part.pushDone 0x61#8 tag }) ∧
     (∀ i : DirIx, r.state = .armed → r.slot = some i →
       exec (.recordStop tag) s = .next { s with part := (Part.pushDone { s.part with
         array := { s.part.array with
           directory := s.part.array.directory.set i DirectorySlot.reset
           erased := s.part.array.erased ++ s.part.array.directory[i].bays }
         recorder := { r with state := .idle } } 0x61#8 tag) }) ∧
     (r.state = .recording ∨ r.state = .stalled → ∃ t : Part,
       exec (.recordStop tag) s = .next { s with part := t } ∧
       t.lane.tail = some ⟨s.part.lane.nextTicket, tag, 0x61#8, some ⟨.done, []⟩⟩ ∧
       t.recorder.state = .closing ∧ t.recorder.closeReason = .requested ∧
       t.array.memory = s.part.array.memory))) ∧
  (∀ (p : Part) (phase : Nat),
    (let r := p.recorder
     let opens (q : Part) : Prop := ∀ i, r.slot = some i →
       (let d := p.array.directory[i]
        let info : TakeInfo := { d.info with startFrame := p.sync.frameCount }
        q.recorder = { r with
          state := .recording, clock := 0, bufferA := ⟨.filling, some 0, []⟩, nextPage := 1 } ∧
        q.array.directory = p.array.directory.set i { d with info := info } ∧
        ∀ bay, d.bays.head? = some bay → d.state = .recording →
          q.array.RecorderHolds (.recorderHeader bay ⟨i, 0, info⟩))
     let starts : Prop := r.trigger = .immediate ∨ (r.trigger = .frame ∧ r.frameSeen = true)
     (r.state = .armed → starts → opens p.recorderServing) ∧
     (r.state = .armed → ¬ starts → p.recorderServing = p) ∧
     (r.state = .armed → r.trigger = .cue → opens p.tellRecorder) ∧
     (¬ (r.state = .armed ∧ r.trigger = .cue) → p.tellRecorder = p) ∧
     (r.state = .recording ∨ r.state = .stalled →
       p.recorderServing = { p with recorder := { r with clock := r.clock + 1 } }) ∧
     (r.state = .idle ∨ r.state = .closing →
       p.recorderServing = p ∧ p.sampleInstant = p ∧ p.markToRecorder phase = p) ∧
     (r.state = .armed → p.sampleInstant = p ∧
       p.markToRecorder phase = { p with recorder := { r with frameSeen := true } }) ∧
     (r.state = .stalled → p.markToRecorder phase = p))) ∧
  (∀ (p : Part) (phase : Nat) (i : DirIx) (f : BufferId), p.recorder.slot = some i →
    p.recorder.filling = some f →
    (let r := p.recorder
     let a := p.array
     let d := a.directory[i]
     let k := (r.buffer f).page.getD 0
     let c := Mask.size d.info.mask
     let due : Prop := r.clock % d.info.divisor = 0
     let beyond : Prop := 4294967295 < r.clock / d.info.divisor
     let values : List Int := (Mask.slots d.info.mask).map fun c => match lensOf c with
       | none => countOf p.shaper.chans[c].p
       | some l =>
         if p.lens.chans[l].mode = .map ∨ p.lens.chans[l].mode = .follow then
           (p.lens.chans[l].physical : Int)
         else countOf p.shaper.chans[c].p
     let kept : Recorder :=
       if r.whole = false ∧ r.previous = values then
         if r.pendingHold + 1 = 65535 then { r.withEntries f [.hold 65535] with pendingHold := 0 }
         else { r with pendingHold := r.pendingHold + 1 }
       else { r.withEntries f (r.heldRun ++ [.sample values]) with
         pendingHold := 0, previous := values, whole := false }
     let tau := (r.clock * 256 + phase) * 256 / d.info.divisor
     let marked : Recorder := { r.withEntries f (r.heldRun ++
       [.mark (tau % 65536) p.sync.frameCount.toNat (tau / 65536)]) with pendingHold := 0 }
     let put (x : Recorder) (d : DirectorySlot) : Part :=
       { p with recorder := x, array := { a with directory := a.directory.set i d } }
     (r.state = .recording ∨ r.state = .stalled → ¬ due → p.sampleInstant = p) ∧
     (r.state = .recording ∨ r.state = .stalled → due → beyond →
       p.sampleInstant = p.closeRecording .full) ∧
     (r.state = .stalled → due → ¬ beyond →
       p.sampleInstant = put { r with
         stallCount := r.stallCount + 1
         missed := (if r.missed = 65535 then 65535 else r.missed + 1)
         overflow := r.overflow || decide (r.missed = 65535) } { d with gaps := d.gaps + 1 }) ∧
     (r.state = .recording → due → ¬ beyond →
       (kept.Roomy f c → p.sampleInstant = put kept { d with samples := d.samples + 1 }) ∧
       (¬ kept.Roomy f c →
         p.sampleInstant = (put kept { d with samples := d.samples + 1 }).turnPage)) ∧
     (r.state = .recording →
       (marked.Roomy f c → p.markToRecorder phase = put marked { d with marks := d.marks + 1 }) ∧
       (¬ marked.Roomy f c →
         p.markToRecorder phase = (put marked { d with marks := d.marks + 1 }).turnPage)) ∧
     (let needs : Prop := (k + 1) % 255 = 0 ∧ r.reserved = none
      let bay : Option Bay := if needs then a.erased.head? else r.reserved
      let bays : List Bay := if needs then d.bays ++ a.erased.head?.toList else d.bays
      let claimed : Recorder := { r with reserved := bay }
      (needs → a.erased = [] → a.dirty = [] → p.turnPage = p.closeRecording .full) ∧
      (¬ (needs ∧ a.erased = [] ∧ a.dirty = []) →
        p.turnPage.array.erased = (if needs then a.erased.tail else a.erased) ∧
        p.turnPage.array.directory = a.directory.set i { d with bays := bays } ∧
        (claimed.Waits f k → p.turnPage.recorder = { claimed with state := .stalled }) ∧
        (¬ claimed.Waits f k → p.turnPage.recorder = r.turned f k [] ∧
          p.turnPage.PageQueued i f k (r.buffer f).entries bay))) ∧
     (r.state = .recording ∨ r.state = .stalled → ∀ reason : EndReason,
       let q := p.closeRecording reason
       let gap : List Entry := if r.state = .stalled ∧ r.stallCount ≠ 0 then [.gap r.stallCount] else []
       let entries := (r.buffer f).entries ++ (r.heldRun ++ gap ++ [Entry.finish]).flatMap Entry.bytes
       q.recorder = { r.setBuffer f { r.buffer f with state := .queued, entries := entries } with
         state := .closing, pendingHold := 0, stallCount := 0, closeReason := reason
         reserved := none, whole := r.whole || decide (gap ≠ []) } ∧
       q.array.erased = a.erased ++ r.reserved.toList ∧
       q.array.directory = a.directory.set i { d with
         bays := d.bays.filter fun b => decide (r.reserved ≠ some b) } ∧
       q.PageQueued i f k entries none))) ∧
  (∀ (s : State) (i : DirIx), s.part.recorder.slot = some i →
    (let r := s.part.recorder
     let a := s.part.array
     let programs (t : Part) : Prop := exec .pageProgramComplete s = .next { s with part := t }
     let closed (d : DirectorySlot) : DirectorySlot :=
       { d with state := .closed, endReason := r.closeReason }
     let resumed (x : Recorder) : Recorder :=
       { x with state := .recording, pendingHold := 0, stallCount := 0, whole := true }
     let opening : List Entry := r.heldRun ++ [.gap r.stallCount]
     (∀ bay h w, a.operation = some (.job (.recorderHeader bay h) w) → ∃ t, programs t ∧
       (r.state = .closing → a.recorderJobs = [] → t.recorder = { r with state := .idle } ∧
         t.array.directory = a.directory.set i (closed a.directory[i])) ∧
       (r.state ≠ .closing ∨ a.recorderJobs ≠ [] →
         t.recorder = r ∧ t.array.directory = a.directory)) ∧
     (∀ k g es w x, a.operation = some (.job (.recorderData i k g es) w) →
       a.directory[i].dataAddress k = some x → ∃ t, programs t ∧
       (let d : DirectorySlot := { a.directory[i] with dataPages := a.directory[i].dataPages + 1 }
        let freed := r.setBuffer g { r.buffer g with state := .free }
        t.array.memory = a.memory.program x (dataPageBytes es) ∧
        (r.state = .closing → a.recorderJobs = [] → t.recorder = { freed with state := .idle } ∧
          t.array.directory = a.directory.set i (closed d)) ∧
        (r.state = .recording ∨ (r.state = .closing ∧ a.recorderJobs ≠ []) →
          t.recorder = freed ∧ t.array.directory = a.directory.set i d) ∧
        (r.state = .stalled → ∀ f, freed.filling = some f →
          (let n := (freed.buffer f).page.getD 0
           t.array.directory = a.directory.set i d ∧
           (freed.Waits f n → t.recorder = freed) ∧
           (¬ freed.Waits f n → t.recorder = (resumed freed).turned f n opening ∧
             t.PageQueued i f n (freed.buffer f).entries r.reserved))))) ∧
     (∀ bay f, a.operation = some (.erase bay) → r.state = .stalled → r.filling = some f →
       r.reserved = none → ∀ head rest, a.erased ++ [bay] = head :: rest →
       (let n := (r.buffer f).page.getD 0
        (n + 1) % 255 = 0 → ∃ t : Part, exec .bayEraseComplete s = .next { s with part := t } ∧
        t.array.erased = rest ∧
        t.array.directory = a.directory.set i
          { a.directory[i] with bays := a.directory[i].bays ++ [head] } ∧
        ((r.buffer f.other).state = .queued → t.recorder = { r with reserved := some head }) ∧
        ((r.buffer f.other).state ≠ .queued → t.recorder = (resumed r).turned f n opening ∧
          t.PageQueued i f n (r.buffer f).entries (some head))))))

/-! ## The player and the cue ring (chapter 10) -/

/-- R172: Cue Write, and what the cue owner map shows after it. -/
def Obligations.CueWriteResult : Prop :=
  ∀ (tag : Byte) (f : CueFields) (s : State), s.part.Room →
    (let code (r : ResultCode) : Prop := exec (.cueWrite tag f) s =
       .next { s with part := s.part.pushRefusal 0x70#8 tag r }
     let ok : Prop := f.slot < 64 ∧ f.mask ≠ 0 ∧ f.mask.toNat < 4096 ∧ f.trigger ≤ 2 ∧
       (f.takeEnd = false → f.start ≤ f.endIx)
     (16 ≤ f.index → code .range) ∧
     (∀ i : CueIx, f.index = i.val → s.part.player.cues[i].owner = .part → code .owned) ∧
     (∀ i : CueIx, f.index = i.val → s.part.player.cues[i].owner = .controller → ¬ ok →
       code .range) ∧
     (∀ i : CueIx, f.index = i.val → s.part.player.cues[i].owner = .controller → ok →
       ∃ (slot : DirIx) (trigger : CueTrigger), slot.val = f.slot ∧ trigger.code = f.trigger ∧
       (let player : Player := { s.part.player with cues := (s.part.player.cues.set i
          { owner := if f.give then .part else .controller
            slot := slot, start := f.start, endIx := if f.takeEnd then none else some f.endIx
            speed := max 256 (min f.speed 16384), mask := f.mask.setWidth 12, trigger := trigger
            lock := f.lock, recordWith := f.recordWith, status := .pending
            startFrame := 0 }) }
        exec (.cueWrite tag f) s = .next { s with part :=
          (Part.pushDone { s.part with player := player } 0x70#8 tag) } ∧
        player.ownerMap.getLsbD i.val = f.give)))

/-- R174 to R177: Player Start, Cue Poll and the auto-poll. Where the player may look, it becomes Suspended at
a controller-owned entry, and Fetching at a part-owned one whose take and modes pass steps 1 and 2 of
R176, its first page read placed; where it may not, a poll has no effect and a start is refused. Then
the fetch on every state: a failing check returns the entry BadTake or ModeMismatch (that a take
without a data page fails so is the model's choice, log 37) and the player looks at the next; and what a
completed page read does in each state of the player (R139, R176 step 3, R179): a further read, the
approach with the starting values held, or a failure with BadTake or OutOfWindow in Fetching, a page of
the prefetch, readable or not, elsewhere, and nothing where the read was withdrawn. The model's choices
for a played lens channel set to Off during the fetch: it keeps its shaped state on entering Approaching
(log 54), and its starting value is judged as a count (log 55). -/
def Obligations.PlayerPolls : Prop :=
  (∀ (tag : Byte) (interval : Nat) (s : State),
    (let p := s.part.player
     let cue := p.cues[p.pointer]
     let d := s.part.array.directory[cue.slot]
     let may : Prop := s.part.seq.state = .running ∧ s.part.zone.recovery = false
     let due : Prop := p.state = .suspended ∧ p.autoInterval ≠ 0 ∧ p.autoInterval ≤ p.autoCount
     let start : Instr := .playerStart tag interval
     let done' (k : Byte) (t : Part) : Prop :=
       t.lane.tail = some ⟨s.part.lane.nextTicket, tag, k, some ⟨.done, []⟩⟩
     let sound : Prop := (d.state = .closed ∨ d.state = .truncated) ∧ d.bays ≠ [] ∧
       d.dataPages ≠ 0 ∧ cue.start < d.samples + d.gaps ∧ cue.mask &&& d.info.mask ≠ 0 ∧
       s.part.ModesPair (cue.mask &&& d.info.mask) d.info ∧ s.part.array.playerJobs = []
     let looks (interval : Nat) (t : Part) : Prop :=
       (cue.owner = .controller → t.player = { p with
         state := .suspended, autoCount := 0, autoInterval := interval }) ∧
       (cue.owner = .part → sound →
         t.player.state = .fetching ∧ t.player.pointer = p.pointer ∧ t.player.cues = p.cues ∧
         t.player.autoInterval = interval ∧ t.player.prefetch = [] ∧
         t.player.played = cue.mask &&& d.info.mask ∧ t.player.tauStart = cue.start * 65536 ∧
         t.player.tauEnd = 65536 * (match cue.endIx with
           | some e => min e (d.samples + d.gaps - 1)
           | none => d.samples + d.gaps - 1) ∧
         t.player.delta = cue.speed * 16 / d.info.divisor ∧
         (.playerRead cue.slot 0 ∈ t.array.playerJobs ∨
           t.array.operation = some (.job (.playerRead cue.slot 0) false)))
     (s.part.Room →
       (s.part.lane.mode = .setup → exec start s =
         .next { s with part := s.part.pushRefusal 0x73#8 tag .wrongMode }) ∧
       (s.part.lane.mode = .run → ¬ (may ∧ p.state = .stopped) → exec start s =
         .next { s with part := s.part.pushRefusal 0x73#8 tag .wrongState }) ∧
       (s.part.lane.mode = .run → may → p.state = .stopped → ∃ t : Part,
         exec start s = .next { s with part := t } ∧ done' 0x73#8 t ∧ looks interval t) ∧
       (¬ (may ∧ p.state = .suspended) → exec (.cuePoll tag) s =
         .next { s with part := s.part.pushDone 0x72#8 tag }) ∧
       (may → p.state = .suspended → ∃ t : Part,
         exec (.cuePoll tag) s = .next { s with part := t } ∧ done' 0x72#8 t ∧
         looks p.autoInterval t)) ∧
     (due → ¬ may → exec .autoPoll s = .next { s with part := { s.part with
       player := { p with autoCount := 0 } } }) ∧
     (due → may → ∃ t : Part, exec .autoPoll s = .next { s with part := t } ∧
       t.lane.mode = s.part.lane.mode ∧
       (cue.owner = .controller → t.player = { p with autoCount := 0 }) ∧
       (cue.owner = .part → sound → t.player.state = .fetching ∧ t.player.pointer = p.pointer)))) ∧
  (∀ x : Part,
    (let p := x.player
     let cue := p.cues[p.pointer]
     let d := x.array.directory[cue.slot]
     let played := cue.mask &&& d.info.mask
     let bad : Prop := (d.state ≠ .closed ∧ d.state ≠ .truncated) ∨
       d.samples + d.gaps ≤ cue.start ∨ played = 0 ∨ d.dataPages = 0
     let cues (status : CueStatus) :=
       p.cues.set p.pointer { cue with owner := .controller, status := status }
     let fails (status : CueStatus) (q : Player) : Prop :=
       q.cues[p.pointer] = { cue with owner := .controller, status := status } ∧
       ((cues status)[p.pointer + 1].owner = .controller → q = { p with
         state := .suspended, autoCount := 0, cues := cues status, pointer := p.pointer + 1
         prefetch := [], context := ⟨0, none, []⟩ })
     (p.state = .suspended → p.autoInterval = 0 ∨ p.autoCount + 1 < p.autoInterval →
       x.playerServing = { x with player := { p with autoCount := min 65535 (p.autoCount + 1) } }) ∧
     (cue.owner = .part → bad → fails .badTake x.enterFetching.player) ∧
     (p.state = .suspended → ∀ waiting : List Instr,
       exec .autoPoll ⟨{ x with player := { p with autoCount := min 65535 (p.autoCount + 1) } }, waiting⟩ =
         .next ⟨x.playerServing, waiting⟩) ∧
     (cue.owner = .part → ¬ bad → ¬ x.ModesPair played d.info →
       fails .modeMismatch x.enterFetching.player) ∧
     (∀ (s : State) (i : DirIx) (k : Nat) (w : Bool), s.part = x →
       x.array.operation = some (.job (.playerRead i k) w) → ∃ t : Part,
       exec .pageReadComplete s = .next { s with part := t } ∧ t.array.memory = x.array.memory ∧
       ((∀ j ∈ x.array.playerJobs, x.array.performs j = true) →
         (w = true ∨ p.state = .stopped ∨ p.state = .suspended → t.player = p) ∧
         (w = false → p.state = .approaching ∨ p.state = .waiting ∨ p.state = .playing ∨
             p.state = .halted ∨ p.state = .closing →
           (let page : PrefetchPage := match x.array.readData i k with
              | some bytes => ⟨k, true, bytes⟩
              | none => ⟨k, false, []⟩
            let joined : Part := { x with player := { p with prefetch := p.prefetch ++ [page] } }
            t.player = if p.state = .waiting ∧ cue.trigger = .go ∧ p.goLatch = true ∧
                joined.prefetchComplete = true then joined.enterPlaying.player
              else joined.player))) ∧
       (w = false → p.state = .fetching → x.array.playerJobs = [] →
         (x.array.readData i k = none → fails .badTake t.player) ∧
         (∀ bytes, x.array.readData i k = some bytes →
           (let joined : Part :=
              { x with player := { p with prefetch := p.prefetch ++ [⟨k, true, bytes⟩] } }
            let points := pointsOf joined.walked
            let st := standingOf points p.tauStart
            let held := joined.takeValues st p.tauStart
            let readable : Prop := (parseEntries (Mask.size d.info.mask) bytes).isSome = true
            let far : Prop := (∃ q ∈ points, p.tauStart ≤ q.index * 65536) ∨ d.dataPages ≤ k + 1
            let inside : Prop := ∀ c : Slot, p.played.getLsbD c.val = true →
              x.shaper.axes[c].present = true ∧ ∀ v, held[c] = some v → x.ValueInside c v
            (¬ readable → fails .badTake t.player) ∧
            (readable → ¬ far → x.array.performs (.playerRead cue.slot (k + 1)) = true →
              t.player.state = .fetching ∧ t.player.pointer = p.pointer ∧ t.player.cues = p.cues ∧
              t.array.PlayerHolds (.playerRead cue.slot (k + 1))) ∧
            (readable → far → inside →
              t.player.state = .approaching ∧ t.player.pointer = p.pointer ∧
              t.player.cues = p.cues ∧ t.player.held = held ∧ t.player.haltReason = .none ∧
              t.player.goLatch = false ∧ t.player.resumed = false ∧
              t.player.prefetch.length ≤ 4 ∧
              (∀ a b, st = .exact a ∨ st = .between a b ∨ st = .after a →
                ∃ v ∈ joined.walked, a ∈ v.points ∧ t.player.prefetch =
                  (joined.player.prefetch.filter fun q => decide (v.page ≤ q.page)).take 4) ∧
              ∀ c : Slot, t.shaper.chans[c] =
                if p.played.getLsbD c.val = true then { x.shaper.chans[c] with source := .take }
                else x.shaper.chans[c]) ∧
            (readable → far → ¬ inside → fails .outOfWindow t.player)))))))

/-- R180, R187, R188, R189: Go, Resume, Abandon and Player Stop in every state of the player; a read of the
player that is in progress when its reads are withdrawn is marked, and any other operation goes on as
it is (R185). Then the play, each part of it on every state: the arrival (R178) and the cue's end
(R185); the prefetch (R179); the entry to Playing by its triggers (R179, R180); the step (R181, R183),
the points and the take value (R182) and the starvation (R183); the frame lock (R184). Where a read
that waits cannot be performed (R139), its page joins the prefetch unreadable in the same action. That a
correction formed before the first step of a cue stays over that step is the model's choice (log 25),
and so are the point that a Hold stands for where no Sample precedes it directly (log 24), the halt
position of a cue that starves on its first step (log 53), that points and marks beyond an
unreadable page of the prefetch are not known (log 22), and that a lens channel in Off is parked at the
cue's end at the take value unchanged (log 55). -/
def Obligations.PlayerRequests : Prop :=
  (∀ (tag : Byte) (s : State), s.part.Room →
    (let p := s.part.player
     let cue := p.cues[p.pointer]
     let code (c : Instr) (k : Byte) (r : ResultCode) : Prop :=
       exec c s = .next { s with part := s.part.pushRefusal k tag r }
     let goes : Prop := (p.state = .approaching ∨ p.state = .waiting) ∧ cue.trigger = .go
     let plays : Prop := p.state = .waiting ∧ s.part.prefetchComplete = true
     let tau := if p.resumed then p.tauHalt else p.tauStart
     let resumes : Prop := s.part.seq.state = .running ∧ s.part.zone.recovery = false ∧
       p.state = .halted
     let fits : Prop := (∀ c : Slot, p.played.getLsbD c.val = true →
         ∀ v, p.held[c] = some v → s.part.ValueInside c v) ∧
       s.part.ModesPair p.played s.part.array.directory[cue.slot].info
     let withdrawn : TakeArray := { s.part.array with
       playerJobs := []
       operation := (match s.part.array.operation with
         | some (.job (.playerRead i k) _) => some (.job (.playerRead i k) true)
         | other => other) }
     let stopped (status : CueStatus) : Player := { p with
       state := .stopped, pointer := p.pointer + 1, prefetch := [], context := ⟨0, none, []⟩
       cues := p.cues.set p.pointer { cue with owner := .controller, status := status } }
     (¬ goes → code (.go tag) 0x75#8 .wrongState) ∧
     (goes → plays → exec (.go tag) s = .next { s with part := (Part.pushDone { s.part with
       player := { p with
         state := .playing, tau := tau, correction := 0, lockGivenUp := false, liveMark := 0
         goLatch := false, firstStep := true, entryTau := tau
         cues := p.cues.set p.pointer { cue with startFrame := s.part.sync.frameCount } } }
       0x75#8 tag) }) ∧
     (goes → ¬ plays → exec (.go tag) s = .next { s with part := (Part.pushDone { s.part with
       player := { p with goLatch := true } } 0x75#8 tag) }) ∧
     (s.part.lane.mode = .setup → code (.resume tag) 0x76#8 .wrongMode) ∧
     (s.part.lane.mode = .run → ¬ resumes → code (.resume tag) 0x76#8 .wrongState) ∧
     (s.part.lane.mode = .run → resumes → ¬ fits → code (.resume tag) 0x76#8 .blocked) ∧
     (s.part.lane.mode = .run → resumes → fits →
       exec (.resume tag) s = .next { s with part := (Part.pushDone { s.part with
         player := { p with
           state := .approaching, haltReason := .none, goLatch := false, resumed := true }
         shaper := { s.part.shaper with chans := (Vector.ofFn fun c : Slot =>
           if p.played.getLsbD c.val = true then { s.part.shaper.chans[c] with source := .take }
           else s.part.shaper.chans[c]) } } 0x76#8 tag) }) ∧
     (p.state ≠ .halted → code (.abandon tag) 0x77#8 .wrongState) ∧
     (p.state = .halted →
       exec (.abandon tag) s = .next { s with part := (Part.pushDone { s.part with
         array := withdrawn
         player := stopped (if p.haltReason = .diverged then .diverged
           else if p.haltReason = .starved then .starved else .halted) } 0x77#8 tag) }) ∧
     (p.state = .stopped → exec (.playerStop tag) s =
       .next { s with part := s.part.pushDone 0x74#8 tag }) ∧
     (p.state = .suspended → exec (.playerStop tag) s = .next { s with part := (Part.pushDone
       { s.part with player := { p with state := .stopped } } 0x74#8 tag) }) ∧
     (p.state ≠ .stopped → p.state ≠ .suspended →
       exec (.playerStop tag) s = .next { s with part := (Part.pushDone { s.part with
         array := withdrawn
         player := stopped .aborted
         shaper := { s.part.shaper with chans := (Vector.ofFn fun c : Slot =>
           let ch := s.part.shaper.chans[c]
           if p.played.getLsbD c.val = true ∧ ch.source = .take then
             { ch with source := .parked
                       park := stoppingExtent ch.p ch.v s.part.shaper.axes[c].amax }
           else ch) } } 0x74#8 tag) }))) ∧
  (∀ (x : Part) (requests : Vector Int 12),
    (let p := x.player
     let cue := p.cues[p.pointer]
     let q := x.arrivalReport requests
     let arrived : Prop := ∀ c : Slot, p.played.getLsbD c.val = true →
       x.shaper.chans[c].v = 0 ∧ x.shaper.chans[c].p =
         max ((x.window c).1 * 65536) (min requests[c] ((x.window c).2 * 65536))
     let latched : Prop := cue.trigger = .go ∧ p.goLatch = true
     let ended := p.cues.set p.pointer { cue with owner := .controller, status := .done }
     let start := if p.resumed then p.tauHalt else p.tauStart
     let sound : Prop := (∀ j ∈ x.array.playerJobs, x.array.performs j = true) ∧
       ∀ k < x.array.directory[cue.slot].dataPages, x.array.performs (.playerRead cue.slot k) = true
     (¬ (arrived ∧ (p.state = .approaching ∨ p.state = .closing)) → q = x) ∧
     (arrived → p.state = .approaching →
       (let filled := Part.fillPrefetch { x with player := { p with state := .waiting } }
        q = if cue.trigger = .go ∧ p.goLatch = true ∧ x.prefetchComplete = true then
          filled.enterPlaying.kick else filled.kick) ∧
       (latched → x.prefetchComplete = true →
         ∃ pages, (∀ g ∈ pages, g.readable = false) ∧ (sound → pages = []) ∧ q.player = { p with
           state := .playing, tau := start, correction := 0, lockGivenUp := false, liveMark := 0
           goLatch := false, firstStep := true, entryTau := start
           cues := p.cues.set p.pointer { cue with startFrame := x.sync.frameCount }
           prefetch := p.prefetch ++ pages }) ∧
       (sound → ¬ (latched ∧ x.prefetchComplete = true) →
         q.player = { p with state := .waiting }) ∧
       (¬ latched → ∃ pages, (∀ g ∈ pages, g.readable = false) ∧
         q.player = { p with state := .waiting, prefetch := p.prefetch ++ pages })) ∧
     (arrived → p.state = .closing →
       q.player.cues[p.pointer] = { cue with owner := .controller, status := .done } ∧
       (ended[p.pointer + 1].owner = .controller → q.array.playerJobs = [] ∧
         q.player = { p with
           state := .suspended, autoCount := 0, cues := ended, pointer := p.pointer + 1
           prefetch := [], context := ⟨0, none, []⟩ }) ∧
       ∀ (c : Slot) (v : Int), p.played.getLsbD c.val = true → p.held[c] = some v →
         q.shaper.chans[c] = { x.shaper.chans[c] with
           source := .parked
           park := (match lensOf c with
             | none => v
             | some l =>
               if x.lens.chans[l].mode = .map ∨ x.lens.chans[l].mode = .follow then
                 65536 * forwardMap x.lens.chans[l].active (takePhysical x.lens.chans[l].active v)
               else v) }))) ∧
  (∀ x : Part,
    (let p := x.player
     let slot := p.cues[p.pointer].slot
     let out := x.array.playerReads
     let dataPages := x.array.directory[slot].dataPages
     (x.prefetchComplete = true ↔
       4 ≤ p.prefetch.length ∨ ∃ g, p.prefetch.getLast? = some g ∧ dataPages ≤ g.page + 1) ∧
     ∀ next : Nat, (∀ g ∈ p.prefetch, g.page < next) → (∀ j ∈ out, j < next) →
       next = 0 ∨ (∃ g ∈ p.prefetch, g.page + 1 = next) ∨ (∃ j ∈ out, j + 1 = next) →
       x.fillPrefetch = { x with array := { x.array with
         playerJobs := x.array.playerJobs ++
           (List.range (min (4 - (p.prefetch.length + out.length)) (dataPages - next))).map fun j =>
             .playerRead slot (next + j) } })) ∧
  (∀ (x : Part) (phase : Nat),
    (let p := x.player
     let cue := p.cues[p.pointer]
     let start := if p.resumed then p.tauHalt else p.tauStart
     let entered : Part := { x with player := { p with
       state := .playing, tau := start, correction := 0, lockGivenUp := false, liveMark := 0
       goLatch := false, firstStep := true, entryTau := start
       cues := p.cues.set p.pointer { cue with startFrame := x.sync.frameCount } } }
     let waits (trigger : CueTrigger) : Prop :=
       p.state = .waiting ∧ cue.trigger = trigger ∧ x.prefetchComplete = true
     let q := x.playerServing
     let tau : Nat := if p.firstStep then p.tau
       else min p.tauEnd ((p.tau : Int) + p.delta + p.correction).toNat
     let points := pointsOf x.walked
     let st := standingOf points tau
     let atEnd : Prop := ∃ g, x.walked.getLast? = some g ∧
       x.array.directory[cue.slot].dataPages ≤ g.page + 1
     let missing : Prop := match st with
       | .exact _ => False
       | .between _ _ => False
       | .after _ => ¬ atEnd
       | .before _ => p.context.values ≠ none
       | .nowhere => ¬ atEnd ∨ p.context.values ≠ none
     let givenUp : Bool := p.lockGivenUp || decide (x.sync.state ≠ .locked ∧ x.sync.state ≠ .freewheel)
     let sound : Prop := (∀ j ∈ x.array.playerJobs, x.array.performs j = true) ∧
       ∀ k < x.array.directory[cue.slot].dataPages, x.array.performs (.playerRead cue.slot k) = true
     let tells : Prop := p.firstStep = true ∧ cue.recordWith = true ∧
       x.recorder.state = .armed ∧ x.recorder.trigger = .cue
     (waits .immediate → q = entered.playerServing) ∧
     (p.state ≠ .suspended → p.state ≠ .playing → ¬ waits .immediate → q = x) ∧
     (p.state = .playing → missing → q = x.starve) ∧
     (p.state = .playing → ¬ missing →
       q.player.tau = tau ∧ q.player.firstStep = false ∧ q.player.lockGivenUp = givenUp ∧
       q.player.correction = (if p.firstStep = true ∧ givenUp = false then p.correction else 0) ∧
       q.player.state = (if tau = p.tauEnd then .closing else .playing) ∧
       q.player.held = (Vector.ofFn fun c : Slot =>
         if p.played.getLsbD c.val = true then some (x.takeValue st tau c) else none) ∧
       q.player.cues = p.cues ∧ q.player.pointer = p.pointer ∧ q.player.liveMark = p.liveMark ∧
       (∀ a b, st = .exact a ∨ st = .between a b ∨ st = .after a →
         ∃ v ∈ x.walked, ∃ pages, a ∈ v.points ∧ (∀ g ∈ pages, g.readable = false) ∧
           (sound → pages = []) ∧
           q.player.prefetch = (p.prefetch.filter fun g => decide (v.page ≤ g.page)) ++ pages) ∧
       (∃ kept : List PrefetchPage,
         (∀ a b, st = .exact a ∨ st = .between a b ∨ st = .after a →
           ∃ v ∈ x.walked, a ∈ v.points ∧
             kept = p.prefetch.filter fun g => decide (v.page ≤ g.page)) ∧
         (let filled := Part.fillPrefetch { x with
            player := { q.player with prefetch := kept }, freeCount := q.freeCount }
          (tells → q = filled.tellRecorder.kick) ∧ (¬ tells → q = filled.kick))) ∧
       q.seq = x.seq ∧ q.shaper = x.shaper ∧
       (¬ tells → q.recorder = x.recorder) ∧
       (tells → x.recorder.slot.isSome = true → q.recorder.state = .recording)) ∧
     (p.state = .playing → x.seq.state = .running →
       x.starve.seq.state = .ramping ∧ x.starve.seq.causes.getLsbD 9 = true ∧
       x.starve.seq.firstCause = some (x.seq.firstCause.getD ⟨.starve, p.pointer.val⟩) ∧
       ∃ pages, (∀ g ∈ pages, g.readable = false) ∧
         (x.recorder.state = .idle ∨ x.recorder.state = .closing → pages = []) ∧
         x.starve.player = { p with
         state := .halted, tauHalt := p.tau, goLatch := false, correction := 0
         haltReason := (if p.haltReason = .none then .starved else p.haltReason)
         prefetch := p.prefetch ++ pages }) ∧
     (p.state = .playing → x.markToPlayer phase = x.liveMarkTaken phase) ∧
     (waits .frame → x.markToPlayer phase = entered.liveMarkTaken phase) ∧
     (p.state ≠ .playing → ¬ waits .frame → x.markToPlayer phase = x) ∧
     (p.lockGivenUp = true → x.liveMarkTaken phase = x) ∧
     (p.lockGivenUp = false → x.liveMarkTaken phase = { x with player := { p with
       liveMark := p.liveMark + 1
       correction := (if cue.lock = true ∧ cue.speed = 4096 then
           (let last : Int := if p.firstStep then (p.entryTau : Int) - p.delta else p.tau
            let expected : Int := last + ((p.delta * phase / 256 : Nat) : Int)
            let most : Int := ((p.delta / 16 : Nat) : Int)
            match x.takeMark p.liveMark with
            | none => 0
            | some m => max (-most) (min (((m : Int) - expected).tdiv 32) most))
         else p.correction) } }) ∧
     (∀ v, x.walked.getLast? = some v → x.knownMarks = v.after.marks) ∧
     (x.walked = [] → x.knownMarks = p.context.marks) ∧
     ((∀ m ∈ x.knownMarks, m < p.entryTau) → ∀ n, x.takeMark n = none) ∧
     (∀ (before later : List Nat) (m n : Nat), x.knownMarks = before ++ m :: later →
       (∀ e ∈ before, e < p.entryTau) → p.entryTau ≤ m →
       x.takeMark n = if p.context.marks.length ≤ before.length + n then (m :: later)[n]?
         else none))) ∧
  (∀ (ctx : TakeContext) (vs : List Int) (n fraction frame index : Nat),
    ctx.step (.sample vs) =
      ({ ctx with index := ctx.index + 1, values := some vs }, some ⟨ctx.index, vs⟩) ∧
    (ctx.step (.sample vs)).1.step (.hold n) =
      ({ ctx with index := ctx.index + 1 + n, values := some vs }, some ⟨ctx.index + n, vs⟩) ∧
    (ctx.step (.hold n)).1 = { ctx with index := ctx.index + n } ∧
    ctx.step (.gap n) = ({ ctx with index := ctx.index + n }, none) ∧
    ctx.step (.mark fraction frame index) =
      ({ ctx with marks := ctx.marks ++ [index * 65536 + fraction] }, none) ∧
    ctx.step .finish = (ctx, none)) ∧
  (∀ (points : List TakePoint) (tau : Nat),
    points.Pairwise (fun a b => a.index < b.index) →
    (∀ a ∈ points, a.index * 65536 = tau → standingOf points tau = .exact a) ∧
    (∀ l a b r, points = l ++ a :: b :: r → a.index * 65536 < tau → tau < b.index * 65536 →
      standingOf points tau = .between a b) ∧
    (∀ l a, points = l ++ [a] → a.index * 65536 < tau → standingOf points tau = .after a) ∧
    (∀ b r, points = b :: r → tau < b.index * 65536 → standingOf points tau = .before b) ∧
    (points = [] → standingOf points tau = .nowhere)) ∧
  (∀ (x : Part) (tau : Nat) (c : Slot) (a b : TakePoint),
    (let mask := x.array.directory[x.player.cues[x.player.pointer].slot].info.mask
     let v (q : TakePoint) : Int := q.value mask c
     x.takeValue (.exact a) tau c = v a * 65536 ∧
     x.takeValue (.before b) tau c = v b * 65536 ∧
     x.takeValue (.after a) tau c = v a * 65536 ∧
     x.takeValue (.between a b) tau c = v a * 65536 +
       divRound ((v b - v a) * ((tau : Int) - a.index * 65536)) ((b.index : Int) - a.index) ∧
     ∀ k, (Mask.slots mask)[k]? = some c → v a = a.values.getD k 0))
end

