-- ==== Sys2Proof/Laws/Formats.lean ====
section
/-! SUPPORT. Little-endian fields read back what was written, and a frame with its check appended passes
the check (section 5.5, R191). -/

namespace Sys2Proof.Machine

theorem leNat_leBytes (n v : Nat) : leNat (leBytes n v) = v % 256 ^ n := by
  induction n generalizing v with
  | zero => simp [leBytes, leNat, Nat.mod_one]
  | succ n ih =>
    have h : 256 ^ (n + 1) = 256 * 256 ^ n := by rw [Nat.pow_succ, Nat.mul_comm]
    rw [leBytes, leNat, ih, BitVec.toNat_ofNat, h, Nat.mod_mul]

@[simp] theorem leBytes_length (n v : Nat) : (leBytes n v).length = n := by
  induction n generalizing v with
  | zero => rfl
  | succ n ih => simp [leBytes, ih]

@[simp] theorem leBytesInt_length (n : Nat) (v : Int) : (leBytesInt n v).length = n :=
  leBytes_length n _

/-- A field read where it was written. -/
theorem fieldNat_leBytes (a b : List Byte) (n v : Nat) :
    fieldNat (a ++ (leBytes n v ++ b)) a.length n = v % 256 ^ n := by
  have h : (leBytes n v ++ b).take n = leBytes n v := by
    rw [List.take_append_of_le_length (Nat.le_of_eq (leBytes_length n v).symm),
      List.take_of_length_le (Nat.le_of_eq (leBytes_length n v))]
  rw [fieldNat, bytesAt, List.drop_left, h, leNat_leBytes]

theorem withCheck_length (bs : List Byte) : (withCheck bs).length = bs.length + 4 := by
  simp [withCheck, leBytes_length]

/-- R191: the check that is appended is the one that is asked. -/
theorem checkGood_withCheck (bs : List Byte) : checkGood (withCheck bs) = true := by
  have h := fieldNat_leBytes bs [] 4 (crc32 bs).toNat
  rw [List.append_nil, Nat.mod_eq_of_lt (by have := (crc32 bs).isLt; omega)] at h
  rw [checkGood, withCheck_length, Nat.add_sub_cancel, withCheck, h, List.take_left]
  exact beq_self_eq_true _

end Sys2Proof.Machine
end

