-- ==== Sys2Proof/Laws/State.lean ====
section
/-! SUPPORT. What each named update of the state leaves as it was: one lemma per field. -/

namespace Sys2Proof.Machine

@[simp] theorem Shaper_setChan_axes (sh : Shaper) (c : Slot) (x : Channel) :
    (sh.setChan c x).axes = sh.axes := rfl
@[simp] theorem Shaper_setChan_timing (sh : Shaper) (c : Slot) (x : Channel) :
    (sh.setChan c x).timing = sh.timing := rfl
@[simp] theorem Shaper_setChan_sigma (sh : Shaper) (c : Slot) (x : Channel) :
    (sh.setChan c x).sigma = sh.sigma := rfl

@[simp] theorem Shaper_setAxis_timing (sh : Shaper) (c : Slot) (a : AxisRecord) :
    (sh.setAxis c a).timing = sh.timing := rfl
@[simp] theorem Shaper_setAxis_chans (sh : Shaper) (c : Slot) (a : AxisRecord) :
    (sh.setAxis c a).chans = sh.chans := rfl
@[simp] theorem Shaper_setAxis_sigma (sh : Shaper) (c : Slot) (a : AxisRecord) :
    (sh.setAxis c a).sigma = sh.sigma := rfl

@[simp] theorem Shaper_mapChans_axes (sh : Shaper) (f : Slot → Channel → Channel) :
    (sh.mapChans f).axes = sh.axes := rfl
@[simp] theorem Shaper_mapChans_timing (sh : Shaper) (f : Slot → Channel → Channel) :
    (sh.mapChans f).timing = sh.timing := rfl
@[simp] theorem Shaper_mapChans_sigma (sh : Shaper) (f : Slot → Channel → Channel) :
    (sh.mapChans f).sigma = sh.sigma := rfl

@[simp] theorem Shaper_onMotion_axes (sh : Shaper) (f : AxisRecord → Channel → Channel) :
    (sh.onMotion f).axes = sh.axes := rfl
@[simp] theorem Shaper_onMotion_timing (sh : Shaper) (f : AxisRecord → Channel → Channel) :
    (sh.onMotion f).timing = sh.timing := rfl
@[simp] theorem Shaper_onMotion_sigma (sh : Shaper) (f : AxisRecord → Channel → Channel) :
    (sh.onMotion f).sigma = sh.sigma := rfl

@[simp] theorem Channel_follow_source (c : Channel) (n : Int) (w : Int × Int) :
    (c.follow n w).source = c.source := rfl
@[simp] theorem Channel_follow_park (c : Channel) (n : Int) (w : Int × Int) :
    (c.follow n w).park = c.park := rfl
@[simp] theorem Channel_follow_resume (c : Channel) (n : Int) (w : Int × Int) :
    (c.follow n w).resume = c.resume := rfl
@[simp] theorem Channel_follow_rampDecel (c : Channel) (n : Int) (w : Int × Int) :
    (c.follow n w).rampDecel = c.rampDecel := rfl
@[simp] theorem Channel_follow_followRun (c : Channel) (n : Int) (w : Int × Int) :
    (c.follow n w).followRun = c.followRun := rfl

@[simp] theorem Channel_takeUp_park (c : Channel) (n : Int) (w : Int × Int) (src : Source) :
    (c.takeUp n w src).park = c.park := rfl
@[simp] theorem Channel_takeUp_resume (c : Channel) (n : Int) (w : Int × Int) (src : Source) :
    (c.takeUp n w src).resume = c.resume := rfl
@[simp] theorem Channel_takeUp_rampDecel (c : Channel) (n : Int) (w : Int × Int) (src : Source) :
    (c.takeUp n w src).rampDecel = c.rampDecel := rfl
@[simp] theorem Channel_takeUp_followRun (c : Channel) (n : Int) (w : Int × Int) (src : Source) :
    (c.takeUp n w src).followRun = c.followRun := rfl

@[simp] theorem Channel_parkHere_p (c : Channel) (a : Nat) : (c.parkHere a).p = c.p := rfl
@[simp] theorem Channel_parkHere_v (c : Channel) (a : Nat) : (c.parkHere a).v = c.v := rfl
@[simp] theorem Channel_parkHere_resume (c : Channel) (a : Nat) :
    (c.parkHere a).resume = c.resume := rfl
@[simp] theorem Channel_parkHere_rampDecel (c : Channel) (a : Nat) :
    (c.parkHere a).rampDecel = c.rampDecel := rfl
@[simp] theorem Channel_parkHere_followRun (c : Channel) (a : Nat) :
    (c.parkHere a).followRun = c.followRun := rfl

@[simp] theorem Channel_parkAt_p (c : Channel) (x : Int) : (c.parkAt x).p = c.p := rfl
@[simp] theorem Channel_parkAt_v (c : Channel) (x : Int) : (c.parkAt x).v = c.v := rfl
@[simp] theorem Channel_parkAt_resume (c : Channel) (x : Int) :
    (c.parkAt x).resume = c.resume := rfl
@[simp] theorem Channel_parkAt_rampDecel (c : Channel) (x : Int) :
    (c.parkAt x).rampDecel = c.rampDecel := rfl
@[simp] theorem Channel_parkAt_followRun (c : Channel) (x : Int) :
    (c.parkAt x).followRun = c.followRun := rfl

@[simp] theorem Channel_withSource_p (c : Channel) (src : Source) :
    (c.withSource src).p = c.p := rfl
@[simp] theorem Channel_withSource_v (c : Channel) (src : Source) :
    (c.withSource src).v = c.v := rfl
@[simp] theorem Channel_withSource_park (c : Channel) (src : Source) :
    (c.withSource src).park = c.park := rfl
@[simp] theorem Channel_withSource_resume (c : Channel) (src : Source) :
    (c.withSource src).resume = c.resume := rfl
@[simp] theorem Channel_withSource_rampDecel (c : Channel) (src : Source) :
    (c.withSource src).rampDecel = c.rampDecel := rfl
@[simp] theorem Channel_withSource_followRun (c : Channel) (src : Source) :
    (c.withSource src).followRun = c.followRun := rfl

@[simp] theorem Channel_generate_source (c : Channel) : c.generate.source = c.source := rfl
@[simp] theorem Channel_generate_park (c : Channel) : c.generate.park = c.park := rfl
@[simp] theorem Channel_generate_resume (c : Channel) : c.generate.resume = c.resume := rfl
@[simp] theorem Channel_generate_rampDecel (c : Channel) : c.generate.rampDecel = c.rampDecel := rfl
@[simp] theorem Channel_generate_followRun (c : Channel) : c.generate.followRun = c.followRun := rfl

@[simp] theorem LensMapper_setChan_target (m : LensMapper) (l : LensIx) (c : LensChannel) :
    (m.setChan l c).target = m.target := rfl

@[simp] theorem LensMapper_install_target (m : LensMapper) : m.install.target = m.target := rfl

@[simp] theorem TakeArray_setSlot_memory (t : TakeArray) (i : DirIx) (d : DirectorySlot) :
    (t.setSlot i d).memory = t.memory := rfl
@[simp] theorem TakeArray_setSlot_operation (t : TakeArray) (i : DirIx) (d : DirectorySlot) :
    (t.setSlot i d).operation = t.operation := rfl
@[simp] theorem TakeArray_setSlot_suspended (t : TakeArray) (i : DirIx) (d : DirectorySlot) :
    (t.setSlot i d).suspended = t.suspended := rfl
@[simp] theorem TakeArray_setSlot_playerJobs (t : TakeArray) (i : DirIx) (d : DirectorySlot) :
    (t.setSlot i d).playerJobs = t.playerJobs := rfl
@[simp] theorem TakeArray_setSlot_recorderJobs (t : TakeArray) (i : DirIx) (d : DirectorySlot) :
    (t.setSlot i d).recorderJobs = t.recorderJobs := rfl
@[simp] theorem TakeArray_setSlot_laneJobs (t : TakeArray) (i : DirIx) (d : DirectorySlot) :
    (t.setSlot i d).laneJobs = t.laneJobs := rfl
@[simp] theorem TakeArray_setSlot_erased (t : TakeArray) (i : DirIx) (d : DirectorySlot) :
    (t.setSlot i d).erased = t.erased := rfl
@[simp] theorem TakeArray_setSlot_dirty (t : TakeArray) (i : DirIx) (d : DirectorySlot) :
    (t.setSlot i d).dirty = t.dirty := rfl
@[simp] theorem TakeArray_setSlot_serial (t : TakeArray) (i : DirIx) (d : DirectorySlot) :
    (t.setSlot i d).serial = t.serial := rfl
@[simp] theorem TakeArray_setSlot_freeze (t : TakeArray) (i : DirIx) (d : DirectorySlot) :
    (t.setSlot i d).freeze = t.freeze := rfl
@[simp] theorem TakeArray_setSlot_clearing (t : TakeArray) (i : DirIx) (d : DirectorySlot) :
    (t.setSlot i d).clearing = t.clearing := rfl
@[simp] theorem TakeArray_setSlot_scanComplete (t : TakeArray) (i : DirIx) (d : DirectorySlot) :
    (t.setSlot i d).scanComplete = t.scanComplete := rfl
@[simp] theorem TakeArray_setSlot_scan (t : TakeArray) (i : DirIx) (d : DirectorySlot) :
    (t.setSlot i d).scan = t.scan := rfl

@[simp] theorem TakeArray_addRead_memory (t : TakeArray) (i : DirIx) (k : Nat) :
    (t.addRead i k).memory = t.memory := rfl
@[simp] theorem TakeArray_addRead_operation (t : TakeArray) (i : DirIx) (k : Nat) :
    (t.addRead i k).operation = t.operation := rfl
@[simp] theorem TakeArray_addRead_suspended (t : TakeArray) (i : DirIx) (k : Nat) :
    (t.addRead i k).suspended = t.suspended := rfl
@[simp] theorem TakeArray_addRead_recorderJobs (t : TakeArray) (i : DirIx) (k : Nat) :
    (t.addRead i k).recorderJobs = t.recorderJobs := rfl
@[simp] theorem TakeArray_addRead_laneJobs (t : TakeArray) (i : DirIx) (k : Nat) :
    (t.addRead i k).laneJobs = t.laneJobs := rfl
@[simp] theorem TakeArray_addRead_erased (t : TakeArray) (i : DirIx) (k : Nat) :
    (t.addRead i k).erased = t.erased := rfl
@[simp] theorem TakeArray_addRead_dirty (t : TakeArray) (i : DirIx) (k : Nat) :
    (t.addRead i k).dirty = t.dirty := rfl
@[simp] theorem TakeArray_addRead_directory (t : TakeArray) (i : DirIx) (k : Nat) :
    (t.addRead i k).directory = t.directory := rfl
@[simp] theorem TakeArray_addRead_serial (t : TakeArray) (i : DirIx) (k : Nat) :
    (t.addRead i k).serial = t.serial := rfl
@[simp] theorem TakeArray_addRead_freeze (t : TakeArray) (i : DirIx) (k : Nat) :
    (t.addRead i k).freeze = t.freeze := rfl
@[simp] theorem TakeArray_addRead_clearing (t : TakeArray) (i : DirIx) (k : Nat) :
    (t.addRead i k).clearing = t.clearing := rfl
@[simp] theorem TakeArray_addRead_scanComplete (t : TakeArray) (i : DirIx) (k : Nat) :
    (t.addRead i k).scanComplete = t.scanComplete := rfl
@[simp] theorem TakeArray_addRead_scan (t : TakeArray) (i : DirIx) (k : Nat) :
    (t.addRead i k).scan = t.scan := rfl

@[simp] theorem TakeArray_withdrawReads_memory (t : TakeArray) :
    t.withdrawReads.memory = t.memory := rfl
@[simp] theorem TakeArray_withdrawReads_suspended (t : TakeArray) :
    t.withdrawReads.suspended = t.suspended := rfl
@[simp] theorem TakeArray_withdrawReads_recorderJobs (t : TakeArray) :
    t.withdrawReads.recorderJobs = t.recorderJobs := rfl
@[simp] theorem TakeArray_withdrawReads_laneJobs (t : TakeArray) :
    t.withdrawReads.laneJobs = t.laneJobs := rfl
@[simp] theorem TakeArray_withdrawReads_erased (t : TakeArray) :
    t.withdrawReads.erased = t.erased := rfl
@[simp] theorem TakeArray_withdrawReads_dirty (t : TakeArray) :
    t.withdrawReads.dirty = t.dirty := rfl
@[simp] theorem TakeArray_withdrawReads_directory (t : TakeArray) :
    t.withdrawReads.directory = t.directory := rfl
@[simp] theorem TakeArray_withdrawReads_serial (t : TakeArray) :
    t.withdrawReads.serial = t.serial := rfl
@[simp] theorem TakeArray_withdrawReads_freeze (t : TakeArray) :
    t.withdrawReads.freeze = t.freeze := rfl
@[simp] theorem TakeArray_withdrawReads_clearing (t : TakeArray) :
    t.withdrawReads.clearing = t.clearing := rfl
@[simp] theorem TakeArray_withdrawReads_scanComplete (t : TakeArray) :
    t.withdrawReads.scanComplete = t.scanComplete := rfl
@[simp] theorem TakeArray_withdrawReads_scan (t : TakeArray) : t.withdrawReads.scan = t.scan := rfl

@[simp] theorem TakeArray_bayErased_suspended (t : TakeArray) (b : Bay) :
    (t.bayErased b).suspended = t.suspended := rfl
@[simp] theorem TakeArray_bayErased_playerJobs (t : TakeArray) (b : Bay) :
    (t.bayErased b).playerJobs = t.playerJobs := rfl
@[simp] theorem TakeArray_bayErased_recorderJobs (t : TakeArray) (b : Bay) :
    (t.bayErased b).recorderJobs = t.recorderJobs := rfl
@[simp] theorem TakeArray_bayErased_laneJobs (t : TakeArray) (b : Bay) :
    (t.bayErased b).laneJobs = t.laneJobs := rfl
@[simp] theorem TakeArray_bayErased_dirty (t : TakeArray) (b : Bay) :
    (t.bayErased b).dirty = t.dirty := rfl
@[simp] theorem TakeArray_bayErased_directory (t : TakeArray) (b : Bay) :
    (t.bayErased b).directory = t.directory := rfl
@[simp] theorem TakeArray_bayErased_serial (t : TakeArray) (b : Bay) :
    (t.bayErased b).serial = t.serial := rfl
@[simp] theorem TakeArray_bayErased_freeze (t : TakeArray) (b : Bay) :
    (t.bayErased b).freeze = t.freeze := rfl
@[simp] theorem TakeArray_bayErased_clearing (t : TakeArray) (b : Bay) :
    (t.bayErased b).clearing = t.clearing := rfl
@[simp] theorem TakeArray_bayErased_scanComplete (t : TakeArray) (b : Bay) :
    (t.bayErased b).scanComplete = t.scanComplete := rfl
@[simp] theorem TakeArray_bayErased_scan (t : TakeArray) (b : Bay) :
    (t.bayErased b).scan = t.scan := rfl

@[simp] theorem ServiceLane_reserve_mode (l : ServiceLane) (kind tag : Byte) :
    (l.reserve kind tag).mode = l.mode := rfl
@[simp] theorem ServiceLane_reserve_dropped (l : ServiceLane) (kind tag : Byte) :
    (l.reserve kind tag).dropped = l.dropped := rfl

@[simp] theorem ServiceLane_drop_mode (l : ServiceLane) : l.drop.mode = l.mode := rfl
@[simp] theorem ServiceLane_drop_queue (l : ServiceLane) : l.drop.queue = l.queue := rfl
@[simp] theorem ServiceLane_drop_nextTicket (l : ServiceLane) :
    l.drop.nextTicket = l.nextTicket := rfl

@[simp] theorem ServiceLane_answer_mode (l : ServiceLane) (k : Nat) (a : Answer) :
    (l.answer k a).mode = l.mode := rfl
@[simp] theorem ServiceLane_answer_dropped (l : ServiceLane) (k : Nat) (a : Answer) :
    (l.answer k a).dropped = l.dropped := rfl
@[simp] theorem ServiceLane_answer_nextTicket (l : ServiceLane) (k : Nat) (a : Answer) :
    (l.answer k a).nextTicket = l.nextTicket := rfl

@[simp] theorem ServiceLane_push_mode (l : ServiceLane) (kind tag : Byte) (a : Answer) :
    (l.push kind tag a).mode = l.mode := rfl
@[simp] theorem ServiceLane_push_dropped (l : ServiceLane) (kind tag : Byte) (a : Answer) :
    (l.push kind tag a).dropped = l.dropped := rfl

@[simp] theorem Sequencer_record_state (q : Sequencer) (k : CauseKind) (d : Nat) :
    (q.record k d).state = q.state := rfl
@[simp] theorem Sequencer_record_category (q : Sequencer) (k : CauseKind) (d : Nat) :
    (q.record k d).category = q.category := rfl
@[simp] theorem Sequencer_record_chainClosed (q : Sequencer) (k : CauseKind) (d : Nat) :
    (q.record k d).chainClosed = q.chainClosed := rfl
@[simp] theorem Sequencer_record_eStopOpen (q : Sequencer) (k : CauseKind) (d : Nat) :
    (q.record k d).eStopOpen = q.eStopOpen := rfl
@[simp] theorem Sequencer_record_guardOpen (q : Sequencer) (k : CauseKind) (d : Nat) :
    (q.record k d).guardOpen = q.guardOpen := rfl
@[simp] theorem Sequencer_record_readiness (q : Sequencer) (k : CauseKind) (d : Nat) :
    (q.record k d).readiness = q.readiness := rfl
@[simp] theorem Sequencer_record_phaseCount (q : Sequencer) (k : CauseKind) (d : Nat) :
    (q.record k d).phaseCount = q.phaseCount := rfl
@[simp] theorem Sequencer_record_phaseStart (q : Sequencer) (k : CauseKind) (d : Nat) :
    (q.record k d).phaseStart = q.phaseStart := rfl
@[simp] theorem Sequencer_record_releaseStart (q : Sequencer) (k : CauseKind) (d : Nat) :
    (q.record k d).releaseStart = q.releaseStart := rfl
@[simp] theorem Sequencer_record_releaseServed (q : Sequencer) (k : CauseKind) (d : Nat) :
    (q.record k d).releaseServed = q.releaseServed := rfl
@[simp] theorem Sequencer_record_axes (q : Sequencer) (k : CauseKind) (d : Nat) :
    (q.record k d).axes = q.axes := rfl

@[simp] theorem SyncUnit_firstEdge_zn (u : SyncUnit) (t : Nat) : (u.firstEdge t).zn = u.zn := rfl
@[simp] theorem SyncUnit_firstEdge_zprev (u : SyncUnit) (t : Nat) :
    (u.firstEdge t).zprev = u.zprev := rfl
@[simp] theorem SyncUnit_firstEdge_zavg (u : SyncUnit) (t : Nat) :
    (u.firstEdge t).zavg = u.zavg := rfl
@[simp] theorem SyncUnit_firstEdge_weight (u : SyncUnit) (t : Nat) :
    (u.firstEdge t).weight = u.weight := rfl
@[simp] theorem SyncUnit_firstEdge_frameCount (u : SyncUnit) (t : Nat) :
    (u.firstEdge t).frameCount = u.frameCount := rfl

@[simp] theorem SyncUnit_accept_state (u : SyncUnit) (t i : Nat) :
    (u.accept t i).state = u.state := rfl
@[simp] theorem SyncUnit_accept_agreement (u : SyncUnit) (t i : Nat) :
    (u.accept t i).agreement = u.agreement := rfl
@[simp] theorem SyncUnit_accept_lossTime (u : SyncUnit) (t i : Nat) :
    (u.accept t i).lossTime = u.lossTime := rfl
@[simp] theorem SyncUnit_accept_nextSynth (u : SyncUnit) (t i : Nat) :
    (u.accept t i).nextSynth = u.nextSynth := rfl
@[simp] theorem SyncUnit_accept_freewheel (u : SyncUnit) (t i : Nat) :
    (u.accept t i).freewheel = u.freewheel := rfl
@[simp] theorem SyncUnit_accept_weight (u : SyncUnit) (t i : Nat) :
    (u.accept t i).weight = u.weight := rfl
@[simp] theorem SyncUnit_accept_phasePoint (u : SyncUnit) (t i : Nat) :
    (u.accept t i).phasePoint = u.phasePoint := rfl
@[simp] theorem SyncUnit_accept_frameCount (u : SyncUnit) (t i : Nat) :
    (u.accept t i).frameCount = u.frameCount := rfl

@[simp] theorem SyncUnit_setLoss_state (u : SyncUnit) (t : Nat) :
    (u.setLoss t).state = u.state := rfl
@[simp] theorem SyncUnit_setLoss_reference (u : SyncUnit) (t : Nat) :
    (u.setLoss t).reference = u.reference := rfl
@[simp] theorem SyncUnit_setLoss_zn (u : SyncUnit) (t : Nat) : (u.setLoss t).zn = u.zn := rfl
@[simp] theorem SyncUnit_setLoss_zprev (u : SyncUnit) (t : Nat) :
    (u.setLoss t).zprev = u.zprev := rfl
@[simp] theorem SyncUnit_setLoss_zavg (u : SyncUnit) (t : Nat) : (u.setLoss t).zavg = u.zavg := rfl
@[simp] theorem SyncUnit_setLoss_agreement (u : SyncUnit) (t : Nat) :
    (u.setLoss t).agreement = u.agreement := rfl
@[simp] theorem SyncUnit_setLoss_nextSynth (u : SyncUnit) (t : Nat) :
    (u.setLoss t).nextSynth = u.nextSynth := rfl
@[simp] theorem SyncUnit_setLoss_freewheel (u : SyncUnit) (t : Nat) :
    (u.setLoss t).freewheel = u.freewheel := rfl
@[simp] theorem SyncUnit_setLoss_weight (u : SyncUnit) (t : Nat) :
    (u.setLoss t).weight = u.weight := rfl
@[simp] theorem SyncUnit_setLoss_phasePoint (u : SyncUnit) (t : Nat) :
    (u.setLoss t).phasePoint = u.phasePoint := rfl
@[simp] theorem SyncUnit_setLoss_frameCount (u : SyncUnit) (t : Nat) :
    (u.setLoss t).frameCount = u.frameCount := rfl

@[simp] theorem Recorder_miss_state (r : Recorder) : r.miss.state = r.state := rfl
@[simp] theorem Recorder_miss_slot (r : Recorder) : r.miss.slot = r.slot := rfl
@[simp] theorem Recorder_miss_trigger (r : Recorder) : r.miss.trigger = r.trigger := rfl
@[simp] theorem Recorder_miss_frameSeen (r : Recorder) : r.miss.frameSeen = r.frameSeen := rfl
@[simp] theorem Recorder_miss_clock (r : Recorder) : r.miss.clock = r.clock := rfl
@[simp] theorem Recorder_miss_previous (r : Recorder) : r.miss.previous = r.previous := rfl
@[simp] theorem Recorder_miss_whole (r : Recorder) : r.miss.whole = r.whole := rfl
@[simp] theorem Recorder_miss_pendingHold (r : Recorder) : r.miss.pendingHold = r.pendingHold := rfl
@[simp] theorem Recorder_miss_bufferA (r : Recorder) : r.miss.bufferA = r.bufferA := rfl
@[simp] theorem Recorder_miss_bufferB (r : Recorder) : r.miss.bufferB = r.bufferB := rfl
@[simp] theorem Recorder_miss_nextPage (r : Recorder) : r.miss.nextPage = r.nextPage := rfl
@[simp] theorem Recorder_miss_reserved (r : Recorder) : r.miss.reserved = r.reserved := rfl
@[simp] theorem Recorder_miss_closeReason (r : Recorder) : r.miss.closeReason = r.closeReason := rfl

@[simp] theorem Player_returnCue_state (p : Player) (st : CueStatus) :
    (p.returnCue st).state = p.state := rfl
@[simp] theorem Player_returnCue_pointer (p : Player) (st : CueStatus) :
    (p.returnCue st).pointer = p.pointer := rfl
@[simp] theorem Player_returnCue_autoInterval (p : Player) (st : CueStatus) :
    (p.returnCue st).autoInterval = p.autoInterval := rfl
@[simp] theorem Player_returnCue_autoCount (p : Player) (st : CueStatus) :
    (p.returnCue st).autoCount = p.autoCount := rfl
@[simp] theorem Player_returnCue_played (p : Player) (st : CueStatus) :
    (p.returnCue st).played = p.played := rfl
@[simp] theorem Player_returnCue_tauStart (p : Player) (st : CueStatus) :
    (p.returnCue st).tauStart = p.tauStart := rfl
@[simp] theorem Player_returnCue_tauEnd (p : Player) (st : CueStatus) :
    (p.returnCue st).tauEnd = p.tauEnd := rfl
@[simp] theorem Player_returnCue_tau (p : Player) (st : CueStatus) :
    (p.returnCue st).tau = p.tau := rfl
@[simp] theorem Player_returnCue_delta (p : Player) (st : CueStatus) :
    (p.returnCue st).delta = p.delta := rfl
@[simp] theorem Player_returnCue_correction (p : Player) (st : CueStatus) :
    (p.returnCue st).correction = p.correction := rfl
@[simp] theorem Player_returnCue_lockGivenUp (p : Player) (st : CueStatus) :
    (p.returnCue st).lockGivenUp = p.lockGivenUp := rfl
@[simp] theorem Player_returnCue_liveMark (p : Player) (st : CueStatus) :
    (p.returnCue st).liveMark = p.liveMark := rfl
@[simp] theorem Player_returnCue_tauHalt (p : Player) (st : CueStatus) :
    (p.returnCue st).tauHalt = p.tauHalt := rfl
@[simp] theorem Player_returnCue_held (p : Player) (st : CueStatus) :
    (p.returnCue st).held = p.held := rfl
@[simp] theorem Player_returnCue_haltReason (p : Player) (st : CueStatus) :
    (p.returnCue st).haltReason = p.haltReason := rfl
@[simp] theorem Player_returnCue_goLatch (p : Player) (st : CueStatus) :
    (p.returnCue st).goLatch = p.goLatch := rfl
@[simp] theorem Player_returnCue_prefetch (p : Player) (st : CueStatus) :
    (p.returnCue st).prefetch = p.prefetch := rfl
@[simp] theorem Player_returnCue_context (p : Player) (st : CueStatus) :
    (p.returnCue st).context = p.context := rfl
@[simp] theorem Player_returnCue_firstStep (p : Player) (st : CueStatus) :
    (p.returnCue st).firstStep = p.firstStep := rfl
@[simp] theorem Player_returnCue_entryTau (p : Player) (st : CueStatus) :
    (p.returnCue st).entryTau = p.entryTau := rfl
@[simp] theorem Player_returnCue_resumed (p : Player) (st : CueStatus) :
    (p.returnCue st).resumed = p.resumed := rfl

@[simp] theorem Player_advance_state (p : Player) : p.advance.state = p.state := rfl
@[simp] theorem Player_advance_cues (p : Player) : p.advance.cues = p.cues := rfl
@[simp] theorem Player_advance_autoInterval (p : Player) :
    p.advance.autoInterval = p.autoInterval := rfl
@[simp] theorem Player_advance_autoCount (p : Player) : p.advance.autoCount = p.autoCount := rfl
@[simp] theorem Player_advance_played (p : Player) : p.advance.played = p.played := rfl
@[simp] theorem Player_advance_tauStart (p : Player) : p.advance.tauStart = p.tauStart := rfl
@[simp] theorem Player_advance_tauEnd (p : Player) : p.advance.tauEnd = p.tauEnd := rfl
@[simp] theorem Player_advance_tau (p : Player) : p.advance.tau = p.tau := rfl
@[simp] theorem Player_advance_delta (p : Player) : p.advance.delta = p.delta := rfl
@[simp] theorem Player_advance_correction (p : Player) : p.advance.correction = p.correction := rfl
@[simp] theorem Player_advance_lockGivenUp (p : Player) :
    p.advance.lockGivenUp = p.lockGivenUp := rfl
@[simp] theorem Player_advance_liveMark (p : Player) : p.advance.liveMark = p.liveMark := rfl
@[simp] theorem Player_advance_tauHalt (p : Player) : p.advance.tauHalt = p.tauHalt := rfl
@[simp] theorem Player_advance_held (p : Player) : p.advance.held = p.held := rfl
@[simp] theorem Player_advance_haltReason (p : Player) : p.advance.haltReason = p.haltReason := rfl
@[simp] theorem Player_advance_goLatch (p : Player) : p.advance.goLatch = p.goLatch := rfl
@[simp] theorem Player_advance_prefetch (p : Player) : p.advance.prefetch = p.prefetch := rfl
@[simp] theorem Player_advance_context (p : Player) : p.advance.context = p.context := rfl
@[simp] theorem Player_advance_firstStep (p : Player) : p.advance.firstStep = p.firstStep := rfl
@[simp] theorem Player_advance_entryTau (p : Player) : p.advance.entryTau = p.entryTau := rfl
@[simp] theorem Player_advance_resumed (p : Player) : p.advance.resumed = p.resumed := rfl

@[simp] theorem Part_answer_now (s : Part) (k : Nat) (c : ResultCode) (d : List Byte) :
    (s.answer k c d).now = s.now := rfl
@[simp] theorem Part_answer_gateway (s : Part) (k : Nat) (c : ResultCode) (d : List Byte) :
    (s.answer k c d).gateway = s.gateway := rfl
@[simp] theorem Part_answer_shaper (s : Part) (k : Nat) (c : ResultCode) (d : List Byte) :
    (s.answer k c d).shaper = s.shaper := rfl
@[simp] theorem Part_answer_zone (s : Part) (k : Nat) (c : ResultCode) (d : List Byte) :
    (s.answer k c d).zone = s.zone := rfl
@[simp] theorem Part_answer_seq (s : Part) (k : Nat) (c : ResultCode) (d : List Byte) :
    (s.answer k c d).seq = s.seq := rfl
@[simp] theorem Part_answer_lens (s : Part) (k : Nat) (c : ResultCode) (d : List Byte) :
    (s.answer k c d).lens = s.lens := rfl
@[simp] theorem Part_answer_sync (s : Part) (k : Nat) (c : ResultCode) (d : List Byte) :
    (s.answer k c d).sync = s.sync := rfl
@[simp] theorem Part_answer_array (s : Part) (k : Nat) (c : ResultCode) (d : List Byte) :
    (s.answer k c d).array = s.array := rfl
@[simp] theorem Part_answer_recorder (s : Part) (k : Nat) (c : ResultCode) (d : List Byte) :
    (s.answer k c d).recorder = s.recorder := rfl
@[simp] theorem Part_answer_player (s : Part) (k : Nat) (c : ResultCode) (d : List Byte) :
    (s.answer k c d).player = s.player := rfl
@[simp] theorem Part_answer_portA (s : Part) (k : Nat) (c : ResultCode) (d : List Byte) :
    (s.answer k c d).portA = s.portA := rfl
@[simp] theorem Part_answer_portB (s : Part) (k : Nat) (c : ResultCode) (d : List Byte) :
    (s.answer k c d).portB = s.portB := rfl
@[simp] theorem Part_answer_freeCount (s : Part) (k : Nat) (c : ResultCode) (d : List Byte) :
    (s.answer k c d).freeCount = s.freeCount := rfl

@[simp] theorem Part_push_now (s : Part) (kind tag : Byte) (a : Answer) :
    (s.push kind tag a).now = s.now := rfl
@[simp] theorem Part_push_gateway (s : Part) (kind tag : Byte) (a : Answer) :
    (s.push kind tag a).gateway = s.gateway := rfl
@[simp] theorem Part_push_shaper (s : Part) (kind tag : Byte) (a : Answer) :
    (s.push kind tag a).shaper = s.shaper := rfl
@[simp] theorem Part_push_zone (s : Part) (kind tag : Byte) (a : Answer) :
    (s.push kind tag a).zone = s.zone := rfl
@[simp] theorem Part_push_seq (s : Part) (kind tag : Byte) (a : Answer) :
    (s.push kind tag a).seq = s.seq := rfl
@[simp] theorem Part_push_lens (s : Part) (kind tag : Byte) (a : Answer) :
    (s.push kind tag a).lens = s.lens := rfl
@[simp] theorem Part_push_sync (s : Part) (kind tag : Byte) (a : Answer) :
    (s.push kind tag a).sync = s.sync := rfl
@[simp] theorem Part_push_array (s : Part) (kind tag : Byte) (a : Answer) :
    (s.push kind tag a).array = s.array := rfl
@[simp] theorem Part_push_recorder (s : Part) (kind tag : Byte) (a : Answer) :
    (s.push kind tag a).recorder = s.recorder := rfl
@[simp] theorem Part_push_player (s : Part) (kind tag : Byte) (a : Answer) :
    (s.push kind tag a).player = s.player := rfl
@[simp] theorem Part_push_portA (s : Part) (kind tag : Byte) (a : Answer) :
    (s.push kind tag a).portA = s.portA := rfl
@[simp] theorem Part_push_portB (s : Part) (kind tag : Byte) (a : Answer) :
    (s.push kind tag a).portB = s.portB := rfl
@[simp] theorem Part_push_freeCount (s : Part) (kind tag : Byte) (a : Answer) :
    (s.push kind tag a).freeCount = s.freeCount := rfl

@[simp] theorem Part_putAxis_now (s : Part) (c : Slot) (a : AxisRecord) :
    (s.putAxis c a).now = s.now := rfl
@[simp] theorem Part_putAxis_gateway (s : Part) (c : Slot) (a : AxisRecord) :
    (s.putAxis c a).gateway = s.gateway := rfl
@[simp] theorem Part_putAxis_lane (s : Part) (c : Slot) (a : AxisRecord) :
    (s.putAxis c a).lane = s.lane := rfl
@[simp] theorem Part_putAxis_zone (s : Part) (c : Slot) (a : AxisRecord) :
    (s.putAxis c a).zone = s.zone := rfl
@[simp] theorem Part_putAxis_seq (s : Part) (c : Slot) (a : AxisRecord) :
    (s.putAxis c a).seq = s.seq := rfl
@[simp] theorem Part_putAxis_lens (s : Part) (c : Slot) (a : AxisRecord) :
    (s.putAxis c a).lens = s.lens := rfl
@[simp] theorem Part_putAxis_sync (s : Part) (c : Slot) (a : AxisRecord) :
    (s.putAxis c a).sync = s.sync := rfl
@[simp] theorem Part_putAxis_array (s : Part) (c : Slot) (a : AxisRecord) :
    (s.putAxis c a).array = s.array := rfl
@[simp] theorem Part_putAxis_recorder (s : Part) (c : Slot) (a : AxisRecord) :
    (s.putAxis c a).recorder = s.recorder := rfl
@[simp] theorem Part_putAxis_player (s : Part) (c : Slot) (a : AxisRecord) :
    (s.putAxis c a).player = s.player := rfl
@[simp] theorem Part_putAxis_portA (s : Part) (c : Slot) (a : AxisRecord) :
    (s.putAxis c a).portA = s.portA := rfl
@[simp] theorem Part_putAxis_portB (s : Part) (c : Slot) (a : AxisRecord) :
    (s.putAxis c a).portB = s.portB := rfl
@[simp] theorem Part_putAxis_freeCount (s : Part) (c : Slot) (a : AxisRecord) :
    (s.putAxis c a).freeCount = s.freeCount := rfl

@[simp] theorem Part_putLens_now (s : Part) (l : LensIx) (c : LensChannel) :
    (s.putLens l c).now = s.now := rfl
@[simp] theorem Part_putLens_gateway (s : Part) (l : LensIx) (c : LensChannel) :
    (s.putLens l c).gateway = s.gateway := rfl
@[simp] theorem Part_putLens_lane (s : Part) (l : LensIx) (c : LensChannel) :
    (s.putLens l c).lane = s.lane := rfl
@[simp] theorem Part_putLens_shaper (s : Part) (l : LensIx) (c : LensChannel) :
    (s.putLens l c).shaper = s.shaper := rfl
@[simp] theorem Part_putLens_zone (s : Part) (l : LensIx) (c : LensChannel) :
    (s.putLens l c).zone = s.zone := rfl
@[simp] theorem Part_putLens_seq (s : Part) (l : LensIx) (c : LensChannel) :
    (s.putLens l c).seq = s.seq := rfl
@[simp] theorem Part_putLens_sync (s : Part) (l : LensIx) (c : LensChannel) :
    (s.putLens l c).sync = s.sync := rfl
@[simp] theorem Part_putLens_array (s : Part) (l : LensIx) (c : LensChannel) :
    (s.putLens l c).array = s.array := rfl
@[simp] theorem Part_putLens_recorder (s : Part) (l : LensIx) (c : LensChannel) :
    (s.putLens l c).recorder = s.recorder := rfl
@[simp] theorem Part_putLens_player (s : Part) (l : LensIx) (c : LensChannel) :
    (s.putLens l c).player = s.player := rfl
@[simp] theorem Part_putLens_portA (s : Part) (l : LensIx) (c : LensChannel) :
    (s.putLens l c).portA = s.portA := rfl
@[simp] theorem Part_putLens_portB (s : Part) (l : LensIx) (c : LensChannel) :
    (s.putLens l c).portB = s.portB := rfl
@[simp] theorem Part_putLens_freeCount (s : Part) (l : LensIx) (c : LensChannel) :
    (s.putLens l c).freeCount = s.freeCount := rfl

@[simp] theorem Part_putZone_now (s : Part) (i : ZoneIx) (z : ZoneEntry) :
    (s.putZone i z).now = s.now := rfl
@[simp] theorem Part_putZone_gateway (s : Part) (i : ZoneIx) (z : ZoneEntry) :
    (s.putZone i z).gateway = s.gateway := rfl
@[simp] theorem Part_putZone_lane (s : Part) (i : ZoneIx) (z : ZoneEntry) :
    (s.putZone i z).lane = s.lane := rfl
@[simp] theorem Part_putZone_seq (s : Part) (i : ZoneIx) (z : ZoneEntry) :
    (s.putZone i z).seq = s.seq := rfl
@[simp] theorem Part_putZone_lens (s : Part) (i : ZoneIx) (z : ZoneEntry) :
    (s.putZone i z).lens = s.lens := rfl
@[simp] theorem Part_putZone_sync (s : Part) (i : ZoneIx) (z : ZoneEntry) :
    (s.putZone i z).sync = s.sync := rfl
@[simp] theorem Part_putZone_array (s : Part) (i : ZoneIx) (z : ZoneEntry) :
    (s.putZone i z).array = s.array := rfl
@[simp] theorem Part_putZone_recorder (s : Part) (i : ZoneIx) (z : ZoneEntry) :
    (s.putZone i z).recorder = s.recorder := rfl
@[simp] theorem Part_putZone_player (s : Part) (i : ZoneIx) (z : ZoneEntry) :
    (s.putZone i z).player = s.player := rfl
@[simp] theorem Part_putZone_portA (s : Part) (i : ZoneIx) (z : ZoneEntry) :
    (s.putZone i z).portA = s.portA := rfl
@[simp] theorem Part_putZone_portB (s : Part) (i : ZoneIx) (z : ZoneEntry) :
    (s.putZone i z).portB = s.portB := rfl
@[simp] theorem Part_putZone_freeCount (s : Part) (i : ZoneIx) (z : ZoneEntry) :
    (s.putZone i z).freeCount = s.freeCount := rfl

@[simp] theorem Part_reevaluate_now (s : Part) : s.reevaluate.now = s.now := rfl
@[simp] theorem Part_reevaluate_gateway (s : Part) : s.reevaluate.gateway = s.gateway := rfl
@[simp] theorem Part_reevaluate_lane (s : Part) : s.reevaluate.lane = s.lane := rfl
@[simp] theorem Part_reevaluate_seq (s : Part) : s.reevaluate.seq = s.seq := rfl
@[simp] theorem Part_reevaluate_lens (s : Part) : s.reevaluate.lens = s.lens := rfl
@[simp] theorem Part_reevaluate_sync (s : Part) : s.reevaluate.sync = s.sync := rfl
@[simp] theorem Part_reevaluate_array (s : Part) : s.reevaluate.array = s.array := rfl
@[simp] theorem Part_reevaluate_recorder (s : Part) : s.reevaluate.recorder = s.recorder := rfl
@[simp] theorem Part_reevaluate_player (s : Part) : s.reevaluate.player = s.player := rfl
@[simp] theorem Part_reevaluate_portA (s : Part) : s.reevaluate.portA = s.portA := rfl
@[simp] theorem Part_reevaluate_portB (s : Part) : s.reevaluate.portB = s.portB := rfl
@[simp] theorem Part_reevaluate_freeCount (s : Part) : s.reevaluate.freeCount = s.freeCount := rfl

@[simp] theorem Part_putCue_now (s : Part) (i : CueIx) (c : Cue) : (s.putCue i c).now = s.now := rfl
@[simp] theorem Part_putCue_gateway (s : Part) (i : CueIx) (c : Cue) :
    (s.putCue i c).gateway = s.gateway := rfl
@[simp] theorem Part_putCue_lane (s : Part) (i : CueIx) (c : Cue) :
    (s.putCue i c).lane = s.lane := rfl
@[simp] theorem Part_putCue_shaper (s : Part) (i : CueIx) (c : Cue) :
    (s.putCue i c).shaper = s.shaper := rfl
@[simp] theorem Part_putCue_zone (s : Part) (i : CueIx) (c : Cue) :
    (s.putCue i c).zone = s.zone := rfl
@[simp] theorem Part_putCue_seq (s : Part) (i : CueIx) (c : Cue) : (s.putCue i c).seq = s.seq := rfl
@[simp] theorem Part_putCue_lens (s : Part) (i : CueIx) (c : Cue) :
    (s.putCue i c).lens = s.lens := rfl
@[simp] theorem Part_putCue_sync (s : Part) (i : CueIx) (c : Cue) :
    (s.putCue i c).sync = s.sync := rfl
@[simp] theorem Part_putCue_array (s : Part) (i : CueIx) (c : Cue) :
    (s.putCue i c).array = s.array := rfl
@[simp] theorem Part_putCue_recorder (s : Part) (i : CueIx) (c : Cue) :
    (s.putCue i c).recorder = s.recorder := rfl
@[simp] theorem Part_putCue_portA (s : Part) (i : CueIx) (c : Cue) :
    (s.putCue i c).portA = s.portA := rfl
@[simp] theorem Part_putCue_portB (s : Part) (i : CueIx) (c : Cue) :
    (s.putCue i c).portB = s.portB := rfl
@[simp] theorem Part_putCue_freeCount (s : Part) (i : CueIx) (c : Cue) :
    (s.putCue i c).freeCount = s.freeCount := rfl

@[simp] theorem Part_advanceTo_gateway (s : Part) (t : Nat) :
    (s.advanceTo t).gateway = s.gateway := rfl
@[simp] theorem Part_advanceTo_lane (s : Part) (t : Nat) : (s.advanceTo t).lane = s.lane := rfl
@[simp] theorem Part_advanceTo_shaper (s : Part) (t : Nat) :
    (s.advanceTo t).shaper = s.shaper := rfl
@[simp] theorem Part_advanceTo_zone (s : Part) (t : Nat) : (s.advanceTo t).zone = s.zone := rfl
@[simp] theorem Part_advanceTo_seq (s : Part) (t : Nat) : (s.advanceTo t).seq = s.seq := rfl
@[simp] theorem Part_advanceTo_lens (s : Part) (t : Nat) : (s.advanceTo t).lens = s.lens := rfl
@[simp] theorem Part_advanceTo_sync (s : Part) (t : Nat) : (s.advanceTo t).sync = s.sync := rfl
@[simp] theorem Part_advanceTo_array (s : Part) (t : Nat) : (s.advanceTo t).array = s.array := rfl
@[simp] theorem Part_advanceTo_recorder (s : Part) (t : Nat) :
    (s.advanceTo t).recorder = s.recorder := rfl
@[simp] theorem Part_advanceTo_player (s : Part) (t : Nat) :
    (s.advanceTo t).player = s.player := rfl
@[simp] theorem Part_advanceTo_portA (s : Part) (t : Nat) : (s.advanceTo t).portA = s.portA := rfl
@[simp] theorem Part_advanceTo_portB (s : Part) (t : Nat) : (s.advanceTo t).portB = s.portB := rfl
@[simp] theorem Part_advanceTo_freeCount (s : Part) (t : Nat) :
    (s.advanceTo t).freeCount = s.freeCount := rfl

@[simp] theorem Part_onAxes_now (s : Part) (f : Axis → AxisRecord → SequencerAxis → SequencerAxis) :
    (s.onAxes f).now = s.now := rfl
@[simp] theorem Part_onAxes_gateway (s : Part) (f : Axis → AxisRecord → SequencerAxis → SequencerAxis) :
    (s.onAxes f).gateway = s.gateway := rfl
@[simp] theorem Part_onAxes_lane (s : Part) (f : Axis → AxisRecord → SequencerAxis → SequencerAxis) :
    (s.onAxes f).lane = s.lane := rfl
@[simp] theorem Part_onAxes_shaper (s : Part) (f : Axis → AxisRecord → SequencerAxis → SequencerAxis) :
    (s.onAxes f).shaper = s.shaper := rfl
@[simp] theorem Part_onAxes_zone (s : Part) (f : Axis → AxisRecord → SequencerAxis → SequencerAxis) :
    (s.onAxes f).zone = s.zone := rfl
@[simp] theorem Part_onAxes_lens (s : Part) (f : Axis → AxisRecord → SequencerAxis → SequencerAxis) :
    (s.onAxes f).lens = s.lens := rfl
@[simp] theorem Part_onAxes_sync (s : Part) (f : Axis → AxisRecord → SequencerAxis → SequencerAxis) :
    (s.onAxes f).sync = s.sync := rfl
@[simp] theorem Part_onAxes_array (s : Part) (f : Axis → AxisRecord → SequencerAxis → SequencerAxis) :
    (s.onAxes f).array = s.array := rfl
@[simp] theorem Part_onAxes_recorder (s : Part) (f : Axis → AxisRecord → SequencerAxis → SequencerAxis) :
    (s.onAxes f).recorder = s.recorder := rfl
@[simp] theorem Part_onAxes_player (s : Part) (f : Axis → AxisRecord → SequencerAxis → SequencerAxis) :
    (s.onAxes f).player = s.player := rfl
@[simp] theorem Part_onAxes_portA (s : Part) (f : Axis → AxisRecord → SequencerAxis → SequencerAxis) :
    (s.onAxes f).portA = s.portA := rfl
@[simp] theorem Part_onAxes_portB (s : Part) (f : Axis → AxisRecord → SequencerAxis → SequencerAxis) :
    (s.onAxes f).portB = s.portB := rfl
@[simp] theorem Part_onAxes_freeCount (s : Part) (f : Axis → AxisRecord → SequencerAxis → SequencerAxis) :
    (s.onAxes f).freeCount = s.freeCount := rfl

@[simp] theorem Part_enterSafeOff_now (s : Part) : s.enterSafeOff.now = s.now := rfl
@[simp] theorem Part_enterSafeOff_gateway (s : Part) : s.enterSafeOff.gateway = s.gateway := rfl
@[simp] theorem Part_enterSafeOff_lane (s : Part) : s.enterSafeOff.lane = s.lane := rfl
@[simp] theorem Part_enterSafeOff_lens (s : Part) : s.enterSafeOff.lens = s.lens := rfl
@[simp] theorem Part_enterSafeOff_sync (s : Part) : s.enterSafeOff.sync = s.sync := rfl
@[simp] theorem Part_enterSafeOff_array (s : Part) : s.enterSafeOff.array = s.array := rfl
@[simp] theorem Part_enterSafeOff_recorder (s : Part) : s.enterSafeOff.recorder = s.recorder := rfl
@[simp] theorem Part_enterSafeOff_player (s : Part) : s.enterSafeOff.player = s.player := rfl
@[simp] theorem Part_enterSafeOff_portA (s : Part) : s.enterSafeOff.portA = s.portA := rfl
@[simp] theorem Part_enterSafeOff_portB (s : Part) : s.enterSafeOff.portB = s.portB := rfl
@[simp] theorem Part_enterSafeOff_freeCount (s : Part) :
    s.enterSafeOff.freeCount = s.freeCount := rfl

@[simp] theorem Part_enterHolding_now (s : Part) : s.enterHolding.now = s.now := rfl
@[simp] theorem Part_enterHolding_gateway (s : Part) : s.enterHolding.gateway = s.gateway := rfl
@[simp] theorem Part_enterHolding_lane (s : Part) : s.enterHolding.lane = s.lane := rfl
@[simp] theorem Part_enterHolding_zone (s : Part) : s.enterHolding.zone = s.zone := rfl
@[simp] theorem Part_enterHolding_lens (s : Part) : s.enterHolding.lens = s.lens := rfl
@[simp] theorem Part_enterHolding_sync (s : Part) : s.enterHolding.sync = s.sync := rfl
@[simp] theorem Part_enterHolding_array (s : Part) : s.enterHolding.array = s.array := rfl
@[simp] theorem Part_enterHolding_recorder (s : Part) : s.enterHolding.recorder = s.recorder := rfl
@[simp] theorem Part_enterHolding_player (s : Part) : s.enterHolding.player = s.player := rfl
@[simp] theorem Part_enterHolding_portA (s : Part) : s.enterHolding.portA = s.portA := rfl
@[simp] theorem Part_enterHolding_portB (s : Part) : s.enterHolding.portB = s.portB := rfl
@[simp] theorem Part_enterHolding_freeCount (s : Part) :
    s.enterHolding.freeCount = s.freeCount := rfl

@[simp] theorem Part_enterRamping_now (s : Part) (c : InForce) :
    (s.enterRamping c).now = s.now := rfl
@[simp] theorem Part_enterRamping_gateway (s : Part) (c : InForce) :
    (s.enterRamping c).gateway = s.gateway := rfl
@[simp] theorem Part_enterRamping_lane (s : Part) (c : InForce) :
    (s.enterRamping c).lane = s.lane := rfl
@[simp] theorem Part_enterRamping_zone (s : Part) (c : InForce) :
    (s.enterRamping c).zone = s.zone := rfl
@[simp] theorem Part_enterRamping_lens (s : Part) (c : InForce) :
    (s.enterRamping c).lens = s.lens := rfl
@[simp] theorem Part_enterRamping_sync (s : Part) (c : InForce) :
    (s.enterRamping c).sync = s.sync := rfl
@[simp] theorem Part_enterRamping_array (s : Part) (c : InForce) :
    (s.enterRamping c).array = s.array := rfl
@[simp] theorem Part_enterRamping_recorder (s : Part) (c : InForce) :
    (s.enterRamping c).recorder = s.recorder := rfl
@[simp] theorem Part_enterRamping_player (s : Part) (c : InForce) :
    (s.enterRamping c).player = s.player := rfl
@[simp] theorem Part_enterRamping_portA (s : Part) (c : InForce) :
    (s.enterRamping c).portA = s.portA := rfl
@[simp] theorem Part_enterRamping_portB (s : Part) (c : InForce) :
    (s.enterRamping c).portB = s.portB := rfl
@[simp] theorem Part_enterRamping_freeCount (s : Part) (c : InForce) :
    (s.enterRamping c).freeCount = s.freeCount := rfl

@[simp] theorem Part_enterSettling_now (s : Part) : s.enterSettling.now = s.now := rfl
@[simp] theorem Part_enterSettling_gateway (s : Part) : s.enterSettling.gateway = s.gateway := rfl
@[simp] theorem Part_enterSettling_lane (s : Part) : s.enterSettling.lane = s.lane := rfl
@[simp] theorem Part_enterSettling_shaper (s : Part) : s.enterSettling.shaper = s.shaper := rfl
@[simp] theorem Part_enterSettling_zone (s : Part) : s.enterSettling.zone = s.zone := rfl
@[simp] theorem Part_enterSettling_lens (s : Part) : s.enterSettling.lens = s.lens := rfl
@[simp] theorem Part_enterSettling_sync (s : Part) : s.enterSettling.sync = s.sync := rfl
@[simp] theorem Part_enterSettling_array (s : Part) : s.enterSettling.array = s.array := rfl
@[simp] theorem Part_enterSettling_recorder (s : Part) :
    s.enterSettling.recorder = s.recorder := rfl
@[simp] theorem Part_enterSettling_player (s : Part) : s.enterSettling.player = s.player := rfl
@[simp] theorem Part_enterSettling_portA (s : Part) : s.enterSettling.portA = s.portA := rfl
@[simp] theorem Part_enterSettling_portB (s : Part) : s.enterSettling.portB = s.portB := rfl
@[simp] theorem Part_enterSettling_freeCount (s : Part) :
    s.enterSettling.freeCount = s.freeCount := rfl

@[simp] theorem Part_hardenToRamp_now (s : Part) : s.hardenToRamp.now = s.now := rfl
@[simp] theorem Part_hardenToRamp_gateway (s : Part) : s.hardenToRamp.gateway = s.gateway := rfl
@[simp] theorem Part_hardenToRamp_lane (s : Part) : s.hardenToRamp.lane = s.lane := rfl
@[simp] theorem Part_hardenToRamp_shaper (s : Part) : s.hardenToRamp.shaper = s.shaper := rfl
@[simp] theorem Part_hardenToRamp_zone (s : Part) : s.hardenToRamp.zone = s.zone := rfl
@[simp] theorem Part_hardenToRamp_lens (s : Part) : s.hardenToRamp.lens = s.lens := rfl
@[simp] theorem Part_hardenToRamp_sync (s : Part) : s.hardenToRamp.sync = s.sync := rfl
@[simp] theorem Part_hardenToRamp_array (s : Part) : s.hardenToRamp.array = s.array := rfl
@[simp] theorem Part_hardenToRamp_recorder (s : Part) : s.hardenToRamp.recorder = s.recorder := rfl
@[simp] theorem Part_hardenToRamp_player (s : Part) : s.hardenToRamp.player = s.player := rfl
@[simp] theorem Part_hardenToRamp_portA (s : Part) : s.hardenToRamp.portA = s.portA := rfl
@[simp] theorem Part_hardenToRamp_portB (s : Part) : s.hardenToRamp.portB = s.portB := rfl
@[simp] theorem Part_hardenToRamp_freeCount (s : Part) :
    s.hardenToRamp.freeCount = s.freeCount := rfl

@[simp] theorem Part_countPhase_now (s : Part) : s.countPhase.now = s.now := rfl
@[simp] theorem Part_countPhase_gateway (s : Part) : s.countPhase.gateway = s.gateway := rfl
@[simp] theorem Part_countPhase_lane (s : Part) : s.countPhase.lane = s.lane := rfl
@[simp] theorem Part_countPhase_shaper (s : Part) : s.countPhase.shaper = s.shaper := rfl
@[simp] theorem Part_countPhase_zone (s : Part) : s.countPhase.zone = s.zone := rfl
@[simp] theorem Part_countPhase_lens (s : Part) : s.countPhase.lens = s.lens := rfl
@[simp] theorem Part_countPhase_sync (s : Part) : s.countPhase.sync = s.sync := rfl
@[simp] theorem Part_countPhase_array (s : Part) : s.countPhase.array = s.array := rfl
@[simp] theorem Part_countPhase_recorder (s : Part) : s.countPhase.recorder = s.recorder := rfl
@[simp] theorem Part_countPhase_player (s : Part) : s.countPhase.player = s.player := rfl
@[simp] theorem Part_countPhase_portA (s : Part) : s.countPhase.portA = s.portA := rfl
@[simp] theorem Part_countPhase_portB (s : Part) : s.countPhase.portB = s.portB := rfl
@[simp] theorem Part_countPhase_freeCount (s : Part) : s.countPhase.freeCount = s.freeCount := rfl

@[simp] theorem Part_countRelease_now (s : Part) : s.countRelease.now = s.now := rfl
@[simp] theorem Part_countRelease_gateway (s : Part) : s.countRelease.gateway = s.gateway := rfl
@[simp] theorem Part_countRelease_lane (s : Part) : s.countRelease.lane = s.lane := rfl
@[simp] theorem Part_countRelease_shaper (s : Part) : s.countRelease.shaper = s.shaper := rfl
@[simp] theorem Part_countRelease_zone (s : Part) : s.countRelease.zone = s.zone := rfl
@[simp] theorem Part_countRelease_lens (s : Part) : s.countRelease.lens = s.lens := rfl
@[simp] theorem Part_countRelease_sync (s : Part) : s.countRelease.sync = s.sync := rfl
@[simp] theorem Part_countRelease_array (s : Part) : s.countRelease.array = s.array := rfl
@[simp] theorem Part_countRelease_recorder (s : Part) : s.countRelease.recorder = s.recorder := rfl
@[simp] theorem Part_countRelease_player (s : Part) : s.countRelease.player = s.player := rfl
@[simp] theorem Part_countRelease_portA (s : Part) : s.countRelease.portA = s.portA := rfl
@[simp] theorem Part_countRelease_portB (s : Part) : s.countRelease.portB = s.portB := rfl
@[simp] theorem Part_countRelease_freeCount (s : Part) :
    s.countRelease.freeCount = s.freeCount := rfl

@[simp] theorem Part_enterApproaching_now (s : Part) : s.enterApproaching.now = s.now := rfl
@[simp] theorem Part_enterApproaching_gateway (s : Part) :
    s.enterApproaching.gateway = s.gateway := rfl
@[simp] theorem Part_enterApproaching_lane (s : Part) : s.enterApproaching.lane = s.lane := rfl
@[simp] theorem Part_enterApproaching_zone (s : Part) : s.enterApproaching.zone = s.zone := rfl
@[simp] theorem Part_enterApproaching_seq (s : Part) : s.enterApproaching.seq = s.seq := rfl
@[simp] theorem Part_enterApproaching_lens (s : Part) : s.enterApproaching.lens = s.lens := rfl
@[simp] theorem Part_enterApproaching_sync (s : Part) : s.enterApproaching.sync = s.sync := rfl
@[simp] theorem Part_enterApproaching_array (s : Part) : s.enterApproaching.array = s.array := rfl
@[simp] theorem Part_enterApproaching_recorder (s : Part) :
    s.enterApproaching.recorder = s.recorder := rfl
@[simp] theorem Part_enterApproaching_portA (s : Part) : s.enterApproaching.portA = s.portA := rfl
@[simp] theorem Part_enterApproaching_portB (s : Part) : s.enterApproaching.portB = s.portB := rfl
@[simp] theorem Part_enterApproaching_freeCount (s : Part) :
    s.enterApproaching.freeCount = s.freeCount := rfl

@[simp] theorem Part_enterPlaying_now (s : Part) : s.enterPlaying.now = s.now := rfl
@[simp] theorem Part_enterPlaying_gateway (s : Part) : s.enterPlaying.gateway = s.gateway := rfl
@[simp] theorem Part_enterPlaying_lane (s : Part) : s.enterPlaying.lane = s.lane := rfl
@[simp] theorem Part_enterPlaying_shaper (s : Part) : s.enterPlaying.shaper = s.shaper := rfl
@[simp] theorem Part_enterPlaying_zone (s : Part) : s.enterPlaying.zone = s.zone := rfl
@[simp] theorem Part_enterPlaying_seq (s : Part) : s.enterPlaying.seq = s.seq := rfl
@[simp] theorem Part_enterPlaying_lens (s : Part) : s.enterPlaying.lens = s.lens := rfl
@[simp] theorem Part_enterPlaying_sync (s : Part) : s.enterPlaying.sync = s.sync := rfl
@[simp] theorem Part_enterPlaying_array (s : Part) : s.enterPlaying.array = s.array := rfl
@[simp] theorem Part_enterPlaying_recorder (s : Part) : s.enterPlaying.recorder = s.recorder := rfl
@[simp] theorem Part_enterPlaying_portA (s : Part) : s.enterPlaying.portA = s.portA := rfl
@[simp] theorem Part_enterPlaying_portB (s : Part) : s.enterPlaying.portB = s.portB := rfl
@[simp] theorem Part_enterPlaying_freeCount (s : Part) :
    s.enterPlaying.freeCount = s.freeCount := rfl

@[simp] theorem Part_dropReads_now (s : Part) : s.dropReads.now = s.now := rfl
@[simp] theorem Part_dropReads_gateway (s : Part) : s.dropReads.gateway = s.gateway := rfl
@[simp] theorem Part_dropReads_lane (s : Part) : s.dropReads.lane = s.lane := rfl
@[simp] theorem Part_dropReads_shaper (s : Part) : s.dropReads.shaper = s.shaper := rfl
@[simp] theorem Part_dropReads_zone (s : Part) : s.dropReads.zone = s.zone := rfl
@[simp] theorem Part_dropReads_seq (s : Part) : s.dropReads.seq = s.seq := rfl
@[simp] theorem Part_dropReads_lens (s : Part) : s.dropReads.lens = s.lens := rfl
@[simp] theorem Part_dropReads_sync (s : Part) : s.dropReads.sync = s.sync := rfl
@[simp] theorem Part_dropReads_recorder (s : Part) : s.dropReads.recorder = s.recorder := rfl
@[simp] theorem Part_dropReads_portA (s : Part) : s.dropReads.portA = s.portA := rfl
@[simp] theorem Part_dropReads_portB (s : Part) : s.dropReads.portB = s.portB := rfl
@[simp] theorem Part_dropReads_freeCount (s : Part) : s.dropReads.freeCount = s.freeCount := rfl

@[simp] theorem Part_failCue_now (s : Part) (st : CueStatus) : (s.failCue st).now = s.now := rfl
@[simp] theorem Part_failCue_gateway (s : Part) (st : CueStatus) :
    (s.failCue st).gateway = s.gateway := rfl
@[simp] theorem Part_failCue_lane (s : Part) (st : CueStatus) : (s.failCue st).lane = s.lane := rfl
@[simp] theorem Part_failCue_shaper (s : Part) (st : CueStatus) :
    (s.failCue st).shaper = s.shaper := rfl
@[simp] theorem Part_failCue_zone (s : Part) (st : CueStatus) : (s.failCue st).zone = s.zone := rfl
@[simp] theorem Part_failCue_seq (s : Part) (st : CueStatus) : (s.failCue st).seq = s.seq := rfl
@[simp] theorem Part_failCue_lens (s : Part) (st : CueStatus) : (s.failCue st).lens = s.lens := rfl
@[simp] theorem Part_failCue_sync (s : Part) (st : CueStatus) : (s.failCue st).sync = s.sync := rfl
@[simp] theorem Part_failCue_recorder (s : Part) (st : CueStatus) :
    (s.failCue st).recorder = s.recorder := rfl
@[simp] theorem Part_failCue_portA (s : Part) (st : CueStatus) :
    (s.failCue st).portA = s.portA := rfl
@[simp] theorem Part_failCue_portB (s : Part) (st : CueStatus) :
    (s.failCue st).portB = s.portB := rfl
@[simp] theorem Part_failCue_freeCount (s : Part) (st : CueStatus) :
    (s.failCue st).freeCount = s.freeCount := rfl

@[simp] theorem Part_returnAllCues_now (s : Part) : s.returnAllCues.now = s.now := rfl
@[simp] theorem Part_returnAllCues_gateway (s : Part) : s.returnAllCues.gateway = s.gateway := rfl
@[simp] theorem Part_returnAllCues_lane (s : Part) : s.returnAllCues.lane = s.lane := rfl
@[simp] theorem Part_returnAllCues_shaper (s : Part) : s.returnAllCues.shaper = s.shaper := rfl
@[simp] theorem Part_returnAllCues_zone (s : Part) : s.returnAllCues.zone = s.zone := rfl
@[simp] theorem Part_returnAllCues_seq (s : Part) : s.returnAllCues.seq = s.seq := rfl
@[simp] theorem Part_returnAllCues_lens (s : Part) : s.returnAllCues.lens = s.lens := rfl
@[simp] theorem Part_returnAllCues_sync (s : Part) : s.returnAllCues.sync = s.sync := rfl
@[simp] theorem Part_returnAllCues_recorder (s : Part) :
    s.returnAllCues.recorder = s.recorder := rfl
@[simp] theorem Part_returnAllCues_portA (s : Part) : s.returnAllCues.portA = s.portA := rfl
@[simp] theorem Part_returnAllCues_portB (s : Part) : s.returnAllCues.portB = s.portB := rfl
@[simp] theorem Part_returnAllCues_freeCount (s : Part) :
    s.returnAllCues.freeCount = s.freeCount := rfl

@[simp] theorem Part_startLenses_now (s : Part) : s.startLenses.now = s.now := rfl
@[simp] theorem Part_startLenses_gateway (s : Part) : s.startLenses.gateway = s.gateway := rfl
@[simp] theorem Part_startLenses_lane (s : Part) : s.startLenses.lane = s.lane := rfl
@[simp] theorem Part_startLenses_shaper (s : Part) : s.startLenses.shaper = s.shaper := rfl
@[simp] theorem Part_startLenses_zone (s : Part) : s.startLenses.zone = s.zone := rfl
@[simp] theorem Part_startLenses_seq (s : Part) : s.startLenses.seq = s.seq := rfl
@[simp] theorem Part_startLenses_sync (s : Part) : s.startLenses.sync = s.sync := rfl
@[simp] theorem Part_startLenses_array (s : Part) : s.startLenses.array = s.array := rfl
@[simp] theorem Part_startLenses_recorder (s : Part) : s.startLenses.recorder = s.recorder := rfl
@[simp] theorem Part_startLenses_player (s : Part) : s.startLenses.player = s.player := rfl
@[simp] theorem Part_startLenses_portA (s : Part) : s.startLenses.portA = s.portA := rfl
@[simp] theorem Part_startLenses_portB (s : Part) : s.startLenses.portB = s.portB := rfl
@[simp] theorem Part_startLenses_freeCount (s : Part) : s.startLenses.freeCount = s.freeCount := rfl

@[simp] theorem Part_clearOperation_now (s : Part) : s.clearOperation.now = s.now := rfl
@[simp] theorem Part_clearOperation_gateway (s : Part) : s.clearOperation.gateway = s.gateway := rfl
@[simp] theorem Part_clearOperation_lane (s : Part) : s.clearOperation.lane = s.lane := rfl
@[simp] theorem Part_clearOperation_shaper (s : Part) : s.clearOperation.shaper = s.shaper := rfl
@[simp] theorem Part_clearOperation_zone (s : Part) : s.clearOperation.zone = s.zone := rfl
@[simp] theorem Part_clearOperation_seq (s : Part) : s.clearOperation.seq = s.seq := rfl
@[simp] theorem Part_clearOperation_lens (s : Part) : s.clearOperation.lens = s.lens := rfl
@[simp] theorem Part_clearOperation_sync (s : Part) : s.clearOperation.sync = s.sync := rfl
@[simp] theorem Part_clearOperation_recorder (s : Part) :
    s.clearOperation.recorder = s.recorder := rfl
@[simp] theorem Part_clearOperation_player (s : Part) : s.clearOperation.player = s.player := rfl
@[simp] theorem Part_clearOperation_portA (s : Part) : s.clearOperation.portA = s.portA := rfl
@[simp] theorem Part_clearOperation_portB (s : Part) : s.clearOperation.portB = s.portB := rfl
@[simp] theorem Part_clearOperation_freeCount (s : Part) :
    s.clearOperation.freeCount = s.freeCount := rfl

@[simp] theorem Part_discardFrame_now (s : Part) : s.discardFrame.now = s.now := rfl
@[simp] theorem Part_discardFrame_lane (s : Part) : s.discardFrame.lane = s.lane := rfl
@[simp] theorem Part_discardFrame_shaper (s : Part) : s.discardFrame.shaper = s.shaper := rfl
@[simp] theorem Part_discardFrame_zone (s : Part) : s.discardFrame.zone = s.zone := rfl
@[simp] theorem Part_discardFrame_seq (s : Part) : s.discardFrame.seq = s.seq := rfl
@[simp] theorem Part_discardFrame_lens (s : Part) : s.discardFrame.lens = s.lens := rfl
@[simp] theorem Part_discardFrame_sync (s : Part) : s.discardFrame.sync = s.sync := rfl
@[simp] theorem Part_discardFrame_array (s : Part) : s.discardFrame.array = s.array := rfl
@[simp] theorem Part_discardFrame_recorder (s : Part) : s.discardFrame.recorder = s.recorder := rfl
@[simp] theorem Part_discardFrame_player (s : Part) : s.discardFrame.player = s.player := rfl
@[simp] theorem Part_discardFrame_portA (s : Part) : s.discardFrame.portA = s.portA := rfl
@[simp] theorem Part_discardFrame_portB (s : Part) : s.discardFrame.portB = s.portB := rfl
@[simp] theorem Part_discardFrame_freeCount (s : Part) :
    s.discardFrame.freeCount = s.freeCount := rfl

@[simp] theorem Part_continueRunning_now (s : Part) : s.continueRunning.now = s.now := rfl
@[simp] theorem Part_continueRunning_gateway (s : Part) :
    s.continueRunning.gateway = s.gateway := rfl
@[simp] theorem Part_continueRunning_lane (s : Part) : s.continueRunning.lane = s.lane := rfl
@[simp] theorem Part_continueRunning_zone (s : Part) : s.continueRunning.zone = s.zone := rfl
@[simp] theorem Part_continueRunning_lens (s : Part) : s.continueRunning.lens = s.lens := rfl
@[simp] theorem Part_continueRunning_sync (s : Part) : s.continueRunning.sync = s.sync := rfl
@[simp] theorem Part_continueRunning_array (s : Part) : s.continueRunning.array = s.array := rfl
@[simp] theorem Part_continueRunning_recorder (s : Part) :
    s.continueRunning.recorder = s.recorder := rfl
@[simp] theorem Part_continueRunning_player (s : Part) : s.continueRunning.player = s.player := rfl
@[simp] theorem Part_continueRunning_portA (s : Part) : s.continueRunning.portA = s.portA := rfl
@[simp] theorem Part_continueRunning_portB (s : Part) : s.continueRunning.portB = s.portB := rfl
@[simp] theorem Part_continueRunning_freeCount (s : Part) :
    s.continueRunning.freeCount = s.freeCount := rfl

@[simp] theorem Part_enterSetup_now (s : Part) : s.enterSetup.now = s.now := rfl
@[simp] theorem Part_enterSetup_gateway (s : Part) : s.enterSetup.gateway = s.gateway := rfl
@[simp] theorem Part_enterSetup_zone (s : Part) : s.enterSetup.zone = s.zone := rfl
@[simp] theorem Part_enterSetup_seq (s : Part) : s.enterSetup.seq = s.seq := rfl
@[simp] theorem Part_enterSetup_lens (s : Part) : s.enterSetup.lens = s.lens := rfl
@[simp] theorem Part_enterSetup_sync (s : Part) : s.enterSetup.sync = s.sync := rfl
@[simp] theorem Part_enterSetup_recorder (s : Part) : s.enterSetup.recorder = s.recorder := rfl
@[simp] theorem Part_enterSetup_portA (s : Part) : s.enterSetup.portA = s.portA := rfl
@[simp] theorem Part_enterSetup_portB (s : Part) : s.enterSetup.portB = s.portB := rfl
@[simp] theorem Part_enterSetup_freeCount (s : Part) : s.enterSetup.freeCount = s.freeCount := rfl

@[simp] theorem Part_enterRun_now (s : Part) : s.enterRun.now = s.now := rfl
@[simp] theorem Part_enterRun_gateway (s : Part) : s.enterRun.gateway = s.gateway := rfl
@[simp] theorem Part_enterRun_zone (s : Part) : s.enterRun.zone = s.zone := rfl
@[simp] theorem Part_enterRun_seq (s : Part) : s.enterRun.seq = s.seq := rfl
@[simp] theorem Part_enterRun_sync (s : Part) : s.enterRun.sync = s.sync := rfl
@[simp] theorem Part_enterRun_array (s : Part) : s.enterRun.array = s.array := rfl
@[simp] theorem Part_enterRun_recorder (s : Part) : s.enterRun.recorder = s.recorder := rfl
@[simp] theorem Part_enterRun_player (s : Part) : s.enterRun.player = s.player := rfl
@[simp] theorem Part_enterRun_portA (s : Part) : s.enterRun.portA = s.portA := rfl
@[simp] theorem Part_enterRun_portB (s : Part) : s.enterRun.portB = s.portB := rfl
@[simp] theorem Part_enterRun_freeCount (s : Part) : s.enterRun.freeCount = s.freeCount := rfl

@[simp] theorem Part_recorderPageDone_now (s : Part) (i : DirIx) (b : BufferId) :
    (s.recorderPageDone i b).now = s.now := rfl
@[simp] theorem Part_recorderPageDone_gateway (s : Part) (i : DirIx) (b : BufferId) :
    (s.recorderPageDone i b).gateway = s.gateway := rfl
@[simp] theorem Part_recorderPageDone_lane (s : Part) (i : DirIx) (b : BufferId) :
    (s.recorderPageDone i b).lane = s.lane := rfl
@[simp] theorem Part_recorderPageDone_shaper (s : Part) (i : DirIx) (b : BufferId) :
    (s.recorderPageDone i b).shaper = s.shaper := rfl
@[simp] theorem Part_recorderPageDone_zone (s : Part) (i : DirIx) (b : BufferId) :
    (s.recorderPageDone i b).zone = s.zone := rfl
@[simp] theorem Part_recorderPageDone_seq (s : Part) (i : DirIx) (b : BufferId) :
    (s.recorderPageDone i b).seq = s.seq := rfl
@[simp] theorem Part_recorderPageDone_lens (s : Part) (i : DirIx) (b : BufferId) :
    (s.recorderPageDone i b).lens = s.lens := rfl
@[simp] theorem Part_recorderPageDone_sync (s : Part) (i : DirIx) (b : BufferId) :
    (s.recorderPageDone i b).sync = s.sync := rfl
@[simp] theorem Part_recorderPageDone_player (s : Part) (i : DirIx) (b : BufferId) :
    (s.recorderPageDone i b).player = s.player := rfl
@[simp] theorem Part_recorderPageDone_portA (s : Part) (i : DirIx) (b : BufferId) :
    (s.recorderPageDone i b).portA = s.portA := rfl
@[simp] theorem Part_recorderPageDone_portB (s : Part) (i : DirIx) (b : BufferId) :
    (s.recorderPageDone i b).portB = s.portB := rfl
@[simp] theorem Part_recorderPageDone_freeCount (s : Part) (i : DirIx) (b : BufferId) :
    (s.recorderPageDone i b).freeCount = s.freeCount := rfl

@[simp] theorem Part_resetAll_now (s : Part) (a b : Bool) : (s.resetAll a b).now = s.now := rfl
@[simp] theorem Part_resetAll_portA (s : Part) (a b : Bool) :
    (s.resetAll a b).portA = s.portA := rfl
@[simp] theorem Part_resetAll_portB (s : Part) (a b : Bool) :
    (s.resetAll a b).portB = s.portB := rfl

end Sys2Proof.Machine
end

