-- ==== Sys2Proof/Laws/Memory.lean ====
section
/-! SUPPORT. The take array's memory: a read after a write, and that every memory operation keeps the
canonical form. -/

namespace Sys2Proof.Machine

/-! ## Cells -/

theorem cellsAbove_weaken {low low' : Nat} (h : low' ≤ low) :
    ∀ {cs : List Host.Cell}, cellsAbove low cs = true → cellsAbove low' cs = true
  | [], _ => rfl
  | (a, b) :: rest, hc => by
    simp only [cellsAbove, Bool.and_eq_true, decide_eq_true_eq] at hc ⊢
    exact ⟨⟨by omega, hc.1.2⟩, hc.2⟩

theorem cellsAbove_putCell {x : Nat} {b : Byte} :
    ∀ {low : Nat} {cs : List Host.Cell}, low ≤ x → cellsAbove low cs = true →
      cellsAbove low (putCell cs x b) = true
  | low, [], hx, _ => by
    unfold putCell
    split
    · rfl
    · rename_i h
      simp [cellsAbove, hx, h]
  | low, (a, c) :: rest, hx, hc => by
    simp only [cellsAbove, Bool.and_eq_true, decide_eq_true_eq] at hc
    unfold putCell
    split
    · split
      · simp [cellsAbove, hc]
      · rename_i h1 h2
        simp only [cellsAbove, Bool.and_eq_true, decide_eq_true_eq]
        exact ⟨⟨hx, h2⟩, ⟨by omega, hc.1.2⟩, hc.2⟩
    · split
      · rename_i h1 h2
        split
        · exact cellsAbove_weaken (by omega) hc.2
        · rename_i h3
          simp only [cellsAbove, Bool.and_eq_true, decide_eq_true_eq]
          exact ⟨⟨hx, h3⟩, by rw [h2]; exact hc.2⟩
      · rename_i h1 h2
        simp only [cellsAbove, Bool.and_eq_true, decide_eq_true_eq]
        exact ⟨hc.1, cellsAbove_putCell (by omega) hc.2⟩

theorem lookupCell_below {y : Nat} :
    ∀ {low : Nat} {cs : List Host.Cell}, y < low → cellsAbove low cs = true →
      lookupCell cs y = erasedByte
  | _, [], _, _ => rfl
  | low, (a, c) :: rest, hy, hc => by
    simp only [cellsAbove, Bool.and_eq_true, decide_eq_true_eq] at hc
    have h : a ≠ y := by omega
    simp only [lookupCell, h, if_false]
    exact lookupCell_below (low := a + 1) (by omega) hc.2

/-- A read after a write to the same address gives the byte written; another address is left
alone. -/
theorem lookupCell_putCell {x y : Nat} {b : Byte} :
    ∀ {low : Nat} {cs : List Host.Cell}, cellsAbove low cs = true →
      lookupCell (putCell cs x b) y = if y = x then b else lookupCell cs y
  | _, [], _ => by
    unfold putCell
    split <;> rename_i h
    · by_cases hy : y = x <;> simp [lookupCell, hy, h]
    · by_cases hy : y = x
      · simp [lookupCell, hy]
      · have : ¬ x = y := fun h => hy h.symm
        simp [lookupCell, hy, this]
  | low, (a, c) :: rest, hc => by
    simp only [cellsAbove, Bool.and_eq_true, decide_eq_true_eq] at hc
    unfold putCell
    split
    · rename_i hlt
      have hcell : lookupCell ((a, c) :: rest) x = erasedByte := by
        have : a ≠ x := by omega
        simp only [lookupCell, this, if_false]
        exact lookupCell_below (low := a + 1) (by omega) hc.2
      split <;> rename_i hb
      · by_cases hy : y = x
        · subst hy; simp [hcell, hb]
        · simp [hy]
      · by_cases hy : y = x
        · simp [lookupCell, hy]
        · have : ¬ x = y := fun h => hy h.symm
          simp [lookupCell, hy, this]
    · split
      · rename_i h1 h2
        subst h2
        split <;> rename_i hb
        · by_cases hy : y = x
          · subst hy
            simp [hb, lookupCell_below (low := y + 1) (Nat.lt_succ_self y) hc.2]
          · have : ¬ x = y := fun h => hy h.symm
            simp [lookupCell, hy, this]
        · by_cases hy : y = x
          · simp [lookupCell, hy]
          · have : ¬ x = y := fun h => hy h.symm
            simp [lookupCell, hy, this]
      · rename_i h1 h2
        have ih := lookupCell_putCell (x := x) (y := y) (b := b) hc.2
        simp only [lookupCell, ih]
        by_cases ha : a = y
        · have : ¬ y = x := by omega
          simp [ha, this]
        · simp [ha]

theorem all_putCell {x : Nat} {b : Byte} {p : Host.Cell → Bool} (hp : p (x, b) = true) :
    ∀ {cs : List Host.Cell}, cs.all p = true → (putCell cs x b).all p = true
  | [], _ => by unfold putCell; split <;> simp [hp]
  | (a, c) :: rest, hc => by
    simp only [List.all_cons, Bool.and_eq_true] at hc
    unfold putCell
    split
    · split <;> simp [hp, hc]
    · split
      · split <;> simp [hp, hc]
      · simp only [List.all_cons, Bool.and_eq_true]
        exact ⟨hc.1, all_putCell hp hc.2⟩

theorem cellsAbove_filter (p : Host.Cell → Bool) :
    ∀ {low : Nat} {cs : List Host.Cell}, cellsAbove low cs = true →
      cellsAbove low (cs.filter p) = true
  | _, [], _ => rfl
  | low, (a, c) :: rest, hc => by
    simp only [cellsAbove, Bool.and_eq_true, decide_eq_true_eq] at hc
    rw [List.filter_cons]
    split
    · simp only [cellsAbove, Bool.and_eq_true, decide_eq_true_eq]
      exact ⟨hc.1, cellsAbove_filter p hc.2⟩
    · exact cellsAbove_weaken (by omega) (cellsAbove_filter p hc.2)

theorem lookupCell_filter {p : Nat → Bool} {y : Nat} :
    ∀ {low : Nat} {cs : List Host.Cell}, cellsAbove low cs = true →
      lookupCell (cs.filter fun c => p c.1) y = if p y then lookupCell cs y else erasedByte
  | _, [], _ => by simp [lookupCell]
  | low, (a, c) :: rest, hc => by
    simp only [cellsAbove, Bool.and_eq_true, decide_eq_true_eq] at hc
    have ih := lookupCell_filter (p := p) (y := y) hc.2
    rw [List.filter_cons]
    by_cases ha : a = y
    · subst ha
      by_cases hp : p a = true
      · simp [hp, lookupCell]
      · simp only [hp, Bool.false_eq_true, if_false] at ih ⊢
        exact ih
    · by_cases hp : p a = true
      · simp [hp, lookupCell, ha, ih]
      · simp only [hp, Bool.false_eq_true, if_false, lookupCell, ha]
        exact ih

/-! ## The memory -/

theorem ArrayMemory.wf_iff (m : ArrayMemory) :
    m.wf = true ↔ cellsAbove 0 m.cells = true ∧ (m.cells.all fun c => decide (c.1 < arraySize)) = true := by
  simp only [ArrayMemory.wf, Bool.and_eq_true]

/-- Writing a byte inside the array keeps the canonical form. -/
theorem ArrayMemory.wf_put {m : ArrayMemory} (h : m.wf = true) {a : Nat} (ha : a < arraySize)
    (b : Byte) : (m.put a b).wf = true := by
  rw [ArrayMemory.wf_iff] at h ⊢
  exact ⟨cellsAbove_putCell (Nat.zero_le _) h.1, all_putCell (by simpa using ha) h.2⟩

/-- A read after a write. -/
theorem ArrayMemory.read_put {m : ArrayMemory} (h : m.wf = true) (a x : Nat) (b : Byte) :
    (m.put a b).read x = if x = a then b else m.read x :=
  lookupCell_putCell (((ArrayMemory.wf_iff m).1 h).1)

theorem ArrayMemory.wf_programByte {m : ArrayMemory} (h : m.wf = true) {a : Nat} (ha : a < arraySize)
    (b : Byte) : (m.programByte a b).wf = true := m.wf_put h ha _

/-- Programming a run of bytes inside the array keeps the canonical form. -/
theorem ArrayMemory.wf_program :
    ∀ {bs : List Byte} {m : ArrayMemory} {a : Nat}, m.wf = true → a + bs.length ≤ arraySize →
      (m.program a bs).wf = true
  | [], _, _, h, _ => h
  | b :: bs, m, a, h, ha => by
    simp only [List.length_cons] at ha
    exact ArrayMemory.wf_program (bs := bs) (m.wf_programByte h (by omega) b) (by omega)

theorem ArrayMemory.wf_putBytes :
    ∀ {bs : List Byte} {m : ArrayMemory} {a : Nat}, m.wf = true → a + bs.length ≤ arraySize →
      (m.putBytes a bs).wf = true
  | [], _, _, h, _ => h
  | b :: bs, m, a, h, ha => by
    simp only [List.length_cons] at ha
    exact ArrayMemory.wf_putBytes (bs := bs) (m.wf_put h (by omega) b) (by omega)

/-- Erasing a range keeps the canonical form. -/
theorem ArrayMemory.wf_eraseRange {m : ArrayMemory} (h : m.wf = true) (lo hi : Nat) :
    (m.eraseRange lo hi).wf = true := by
  rw [ArrayMemory.wf_iff] at h ⊢
  refine ⟨cellsAbove_filter _ h.1, ?_⟩
  simp only [ArrayMemory.eraseRange, List.all_eq_true, List.mem_filter] at h ⊢
  exact fun c hc => h.2 c hc.1

/-- An erased range reads 0xFF; the rest reads as before. -/
theorem ArrayMemory.read_eraseRange {m : ArrayMemory} (h : m.wf = true) (lo hi x : Nat) :
    (m.eraseRange lo hi).read x = if lo ≤ x ∧ x < hi then erasedByte else m.read x := by
  have hl := lookupCell_filter (p := fun y => decide (y < lo) || decide (hi ≤ y)) (y := x)
    (((ArrayMemory.wf_iff m).1 h).1)
  simp only [ArrayMemory.read, ArrayMemory.eraseRange, hl]
  by_cases h1 : lo ≤ x ∧ x < hi
  · have h2 : ¬ (x < lo ∨ hi ≤ x) := by omega
    simp [h1, h2]
  · have h2 : x < lo ∨ hi ≤ x := by omega
    simp [h1, h2]

/-- Every page of every bay lies inside the array. -/
theorem pageAddress_bound (bay : Bay) {page : Nat} (h : page ≤ 255) :
    pageAddress bay page + 256 ≤ arraySize := by
  have := bay.isLt
  simp only [pageAddress, arraySize]
  omega

/-- Erasing a bay keeps the canonical form. -/
theorem ArrayMemory.wf_eraseBay {m : ArrayMemory} (h : m.wf = true) (bay : Bay) :
    (m.eraseBay bay).wf = true := by
  have := pageAddress_bound bay (page := 0) (by omega)
  exact ArrayMemory.wf_put (ArrayMemory.wf_eraseRange h _ _) (by omega) _

/-- R141: after the erase of a bay its first byte is the marker, the rest of it reads 0xFF, and
every other bay reads as before. -/
theorem ArrayMemory.read_eraseBay {m : ArrayMemory} (h : m.wf = true) (bay : Bay) (x : Nat) :
    (m.eraseBay bay).read x =
      if x = pageAddress bay 0 then 0xA5#8
      else if pageAddress bay 0 ≤ x ∧ x < pageAddress bay 0 + 65536 then erasedByte
      else m.read x := by
  unfold ArrayMemory.eraseBay
  rw [ArrayMemory.read_put (ArrayMemory.wf_eraseRange h _ _), ArrayMemory.read_eraseRange h]

/-- The memory after reset is in canonical form. -/
theorem reset_memory_wf : State.reset.part.array.memory.wf = true := rfl

/-! ## What the programs of the controller address -/

/-- R134: a located data page lies on a page 1–255 of a bay of the chain. -/
theorem DirectorySlot.locate_spec {d : DirectorySlot} {page : Nat} {l : Bay × Nat}
    (h : d.locate page = some l) : l.1 ∈ d.bays ∧ 1 ≤ l.2 ∧ l.2 ≤ 255 := by
  simp only [DirectorySlot.locate, Option.map_eq_some_iff] at h
  obtain ⟨b, hb, rfl⟩ := h
  refine ⟨List.mem_of_getElem? hb, ?_, ?_⟩ <;> simp <;> omega

theorem padEntries_length (es : List Byte) : (padEntries es).length = 254 := by
  simp only [padEntries, List.length_take, List.length_append, List.length_replicate]
  omega

theorem dataPageBytes_length (es : List Byte) : (dataPageBytes es).length = 256 := by
  simp [dataPageBytes, padEntries_length]

theorem TakeHeader.body_length (h : TakeHeader) : h.body.length = 30 := by
  simp [TakeHeader.body]

theorem TakeHeader.bytes_length (h : TakeHeader) : h.bytes.length = 32 := by
  simp [TakeHeader.bytes, TakeHeader.body_length]

/-- Every program of the controller keeps the canonical form. -/
theorem TakeArray.wf_programmed {t : TakeArray} (h : t.memory.wf = true) (j : Job) :
    (t.programmed j).wf = true := by
  have hdata : ∀ (d : DirectorySlot) (page : Nat) (es : List Byte),
      (match d.dataAddress page with
        | some a => t.memory.program a (dataPageBytes es)
        | none => t.memory).wf = true := by
    intro d page es
    split
    · rename_i a ha
      simp only [DirectorySlot.dataAddress, Option.map_eq_some_iff] at ha
      obtain ⟨l, hl, rfl⟩ := ha
      have hb := pageAddress_bound l.1 (DirectorySlot.locate_spec hl).2.2
      exact ArrayMemory.wf_program h (by rw [dataPageBytes_length]; exact hb)
    · exact h
  have hhead : ∀ (bay : Bay) (n : Nat), n < 256 → pageAddress bay 0 + n < arraySize := by
    intro bay n hn
    have := pageAddress_bound bay (page := 0) (by omega)
    omega
  cases j with
  | playerRead slot page => exact h
  | takeRead ticket slot page => exact h
  | recorderHeader bay hd =>
    have := pageAddress_bound bay (page := 0) (by omega)
    exact ArrayMemory.wf_program h (by rw [TakeHeader.bytes_length]; omega)
  | writeHeader bay hd =>
    have := pageAddress_bound bay (page := 0) (by omega)
    exact ArrayMemory.wf_program h (by rw [TakeHeader.bytes_length]; omega)
  | recorderData slot page buf es => exact hdata _ _ _
  | writeData ticket slot page es => exact hdata _ _ _
  | lock ticket slot bay => exact t.memory.wf_programByte h (hhead bay 65 (by omega)) _
  | retire slot bay => exact t.memory.wf_programByte h (hhead bay 64 (by omega)) _
  | clearRetire slot bay => exact t.memory.wf_programByte h (hhead bay 64 (by omega)) _

theorem freshBytes_length (count n : Nat) : (freshBytes count n).length = n := by
  simp [freshBytes]

theorem cellsAbove_filterMap {f : Host.Cell → Option Host.Cell}
    (hf : ∀ c d, f c = some d → d.1 = c.1 ∧ (c.2 ≠ erasedByte → d.2 ≠ erasedByte)) :
    ∀ {low : Nat} {cs : List Host.Cell}, cellsAbove low cs = true →
      cellsAbove low (cs.filterMap f) = true
  | _, [], _ => rfl
  | low, (a, c) :: rest, hc => by
    simp only [cellsAbove, Bool.and_eq_true, decide_eq_true_eq] at hc
    rw [List.filterMap_cons]
    split
    · exact cellsAbove_weaken (by omega) (cellsAbove_filterMap hf hc.2)
    · rename_i d hd
      have hk := hf _ _ hd
      obtain ⟨x, y⟩ := d
      simp only at hk
      simp only [cellsAbove, Bool.and_eq_true, decide_eq_true_eq]
      refine ⟨⟨by omega, hk.2 hc.1.2⟩, ?_⟩
      rw [hk.1]
      exact cellsAbove_filterMap hf hc.2

/-- An erase cut short keeps the canonical form. -/
theorem wf_cutErase {m : ArrayMemory} (h : m.wf = true) (bay : Bay) (count : Nat) :
    (cutErase m bay count).wf = true := by
  have hb := pageAddress_bound bay (page := 0) (by omega)
  refine ArrayMemory.wf_putBytes ?_ (by simp [freshBytes_length]; omega)
  rw [ArrayMemory.wf_iff] at h ⊢
  constructor
  · refine cellsAbove_filterMap ?_ h.1
    intro c d hd
    split at hd
    · split at hd
      · simp at hd
      · rename_i hne
        simp only [Option.some.injEq] at hd
        subst hd
        exact ⟨rfl, fun _ => hne⟩
    · simp only [Option.some.injEq] at hd
      subst hd
      exact ⟨rfl, id⟩
  · simp only [List.all_eq_true, List.mem_filterMap, decide_eq_true_eq] at h ⊢
    rintro d ⟨c, hc, hd⟩
    have := h.2 c hc
    split at hd
    · split at hd
      · simp at hd
      · simp only [Option.some.injEq] at hd
        subst hd; exact this
    · simp only [Option.some.injEq] at hd
      subst hd; exact this

/-- What a reset finds after the operation in progress was cut short is in canonical form. -/
theorem TakeArray.wf_afterCut {t : TakeArray} (h : t.memory.wf = true) (count : Nat) :
    (t.afterCut count).wf = true := by
  have hdata : ∀ (d : DirectorySlot) (page : Nat),
      (match d.dataAddress page with
        | some a => cutData t.memory a count
        | none => t.memory).wf = true := by
    intro d page
    split
    · rename_i a ha
      simp only [DirectorySlot.dataAddress, Option.map_eq_some_iff] at ha
      obtain ⟨l, hl, rfl⟩ := ha
      have hb := pageAddress_bound l.1 (DirectorySlot.locate_spec hl).2.2
      unfold cutData
      dsimp only
      split
      · exact h
      · exact ArrayMemory.wf_putBytes h (by rw [freshBytes_length]; exact hb)
    · exact h
  have hheader : ∀ (bay : Bay) (hd : TakeHeader), (cutHeader t.memory bay hd count).wf = true := by
    intro bay hd
    have := pageAddress_bound bay (page := 0) (by omega)
    unfold cutHeader
    dsimp only
    split
    · exact ArrayMemory.wf_putBytes h (by rw [freshBytes_length]; omega)
    · exact ArrayMemory.wf_putBytes h (by simp [TakeHeader.body_length]; omega)
  have hbyte : ∀ (bay : Bay) (n : Nat), n < 256 →
      (cutByte t.memory (pageAddress bay 0 + n) count).wf = true := by
    intro bay n hn
    have := pageAddress_bound bay (page := 0) (by omega)
    exact ArrayMemory.wf_put h (by omega) _
  have hop : (t.cutOperation count).wf = true := by
    unfold TakeArray.cutOperation
    split
    · exact h
    · exact wf_cutErase h _ _
    · rename_i j _ _
      cases j with
      | playerRead slot page => exact h
      | takeRead ticket slot page => exact h
      | recorderHeader bay hd => exact hheader _ _
      | writeHeader bay hd => exact hheader _ _
      | recorderData slot page buf es => exact hdata _ _
      | writeData ticket slot page es => exact hdata _ _
      | lock ticket slot bay => exact hbyte bay 65 (by omega)
      | retire slot bay => exact hbyte bay 64 (by omega)
      | clearRetire slot bay => exact hbyte bay 64 (by omega)
  unfold TakeArray.afterCut
  dsimp only
  split
  · exact hop
  · exact wf_cutErase hop _ _

end Sys2Proof.Machine
end

