-- ==== Sys2Proof/Laws/Frames.lean ====
section
/-! SUPPORT. What the work of the player, of the take array, of the recorder and of the stop sequencer can
do to the part: four relations, each holding of every function of its group, composed by `trans`. -/

namespace Sys2Proof.Machine

/-! ## Tickets of the array's requests -/

@[simp] theorem tickets_eq {t u : TakeArray} (ho : t.operation = u.operation)
    (hl : t.laneJobs = u.laneJobs) : t.tickets = u.tickets := by
  simp [TakeArray.tickets, ho, hl]

theorem tickets_withdrawReads (t : TakeArray) : t.withdrawReads.tickets = t.tickets := by
  unfold TakeArray.tickets TakeArray.withdrawReads
  rcases t.operation with _ | ⟨j, w⟩ | b
  · rfl
  · cases j <;> rfl
  · rfl

/-! ## The lane under the array's work -/

/-- What the completion of array requests can do to the reply queue: entries become Ready where they
stand, and only entries whose ticket a request at the array holds. -/
structure Answered (tickets : List Nat) (l m : ServiceLane) : Prop where
  mode : m.mode = l.mode
  dropped : m.dropped = l.dropped
  next : m.nextTicket = l.nextTicket
  queue : ∃ f : ReplyEntry → ReplyEntry, m.queue = l.queue.map f ∧
    (∀ e, (f e).ticket = e.ticket ∧ (f e).tag = e.tag ∧ (f e).kind = e.kind) ∧
    (∀ e, e.answer ≠ none → f e = e) ∧ (∀ e, e.ticket ∉ tickets → f e = e)

theorem Answered.refl (tickets : List Nat) (l : ServiceLane) : Answered tickets l l :=
  ⟨rfl, rfl, rfl, id, by simp, fun _ => ⟨rfl, rfl, rfl⟩, fun _ _ => rfl, fun _ _ => rfl⟩

theorem Answered.trans {ts us : List Nat} {l m n : ServiceLane} (h : Answered ts l m)
    (hsub : ∀ x ∈ us, x ∈ ts) (k : Answered us m n) : Answered ts l n := by
  obtain ⟨f, hf, hf1, hf2, hf3⟩ := h.queue
  obtain ⟨g, hg, hg1, hg2, hg3⟩ := k.queue
  refine ⟨k.mode.trans h.mode, k.dropped.trans h.dropped, k.next.trans h.next, g ∘ f, ?_, ?_, ?_, ?_⟩
  · rw [hg, hf, List.map_map]
  · intro e
    exact ⟨(hg1 _).1.trans (hf1 _).1, (hg1 _).2.1.trans (hf1 _).2.1, (hg1 _).2.2.trans (hf1 _).2.2⟩
  · intro e he
    have h1 := hf2 e he
    simp only [Function.comp, h1]
    exact hg2 e he
  · intro e he
    have h1 := hf3 e he
    simp only [Function.comp, h1]
    exact hg3 e fun hu => he (hsub _ hu)

theorem Answered.mono {ts us : List Nat} {l m : ServiceLane} (h : Answered ts l m)
    (hsub : ∀ x ∈ ts, x ∈ us) : Answered us l m := by
  obtain ⟨f, hf, hf1, hf2, hf3⟩ := h.queue
  exact ⟨h.mode, h.dropped, h.next, f, hf, hf1, hf2, fun e he => hf3 e fun hu => he (hsub _ hu)⟩

theorem ReplyEntry.give_same (e : ReplyEntry) (n : Nat) (a : Answer) :
    (e.give n a).ticket = e.ticket ∧ (e.give n a).tag = e.tag ∧ (e.give n a).kind = e.kind := by
  unfold ReplyEntry.give
  split <;> exact ⟨rfl, rfl, rfl⟩

theorem ReplyEntry.give_ready {e : ReplyEntry} (h : e.answer ≠ none) (n : Nat) (a : Answer) :
    e.give n a = e := by
  unfold ReplyEntry.give
  rw [if_neg fun k => h k.2]

theorem ReplyEntry.give_other {e : ReplyEntry} {n : Nat} (h : e.ticket ≠ n) (a : Answer) :
    e.give n a = e := by
  unfold ReplyEntry.give
  rw [if_neg fun k => h k.1]

/-- Answering a ticket that a request at the array holds. -/
theorem Answered.answer {ts : List Nat} {n : Nat} (h : n ∈ ts) (l : ServiceLane) (a : Answer) :
    Answered ts l (l.answer n a) :=
  ⟨rfl, rfl, rfl, fun e => e.give n a, rfl, fun e => e.give_same n a, fun _ he => ReplyEntry.give_ready he n a,
    fun e he => ReplyEntry.give_other (fun hn => he (by rw [hn]; exact h)) a⟩

/-- The whole of Answered of an entry at a place. -/
theorem Answered.at_ready {ts : List Nat} {l m : ServiceLane} (h : Answered ts l m) {i : Nat}
    {e : ReplyEntry} (he : l.queue[i]? = some e) (ha : e.answer ≠ none) : m.queue[i]? = some e := by
  obtain ⟨f, hf, _, hf2, _⟩ := h.queue
  rw [hf, List.getElem?_map, he]
  exact congrArg some (hf2 e ha)

theorem Answered.at_other {ts : List Nat} {l m : ServiceLane} (h : Answered ts l m) {i : Nat}
    {e : ReplyEntry} (he : l.queue[i]? = some e) (ha : e.ticket ∉ ts) : m.queue[i]? = some e := by
  obtain ⟨f, hf, _, _, hf3⟩ := h.queue
  rw [hf, List.getElem?_map, he]
  exact congrArg some (hf3 e ha)

/-! ## The four relations -/

/-- The fields that none of the work below touches. -/
structure SameFrame (s t : Part) : Prop where
  now : t.now = s.now
  gateway : t.gateway = s.gateway
  lens : t.lens = s.lens
  sync : t.sync = s.sync
  portA : t.portA = s.portA
  portB : t.portB = s.portB
  lane : Answered s.array.tickets s.lane t.lane
  tickets : ∀ n ∈ t.array.tickets, n ∈ s.array.tickets
  axes : t.shaper.axes = s.shaper.axes
  timing : t.shaper.timing = s.shaper.timing
  sigma : t.shaper.sigma = s.shaper.sigma
  memory : t.array.memory = s.array.memory
  freeze : t.array.freeze = s.array.freeze
  clearing : t.array.clearing = s.array.clearing
  scanComplete : t.array.scanComplete = s.array.scanComplete
  scan : t.array.scan = s.array.scan
  serial : t.array.serial = s.array.serial
  cueSlots : ∀ i : CueIx, t.player.cues[i].slot = s.player.cues[i].slot
  pointerRun : t.player.autoInterval = s.player.autoInterval

/-- The recorder's work also leaves the stop sequencer and the zone monitor alone. -/
structure SameStops (s t : Part) : Prop extends SameFrame s t where
  seq : t.seq = s.seq
  zone : t.zone = s.zone

/-- The take array's work also leaves the recorder and the directory alone. -/
structure SameRecorder (s t : Part) : Prop extends SameStops s t where
  recorder : t.recorder = s.recorder
  directory : t.array.directory = s.array.directory

/-- The player's own work also leaves the lane alone. -/
structure SameLane (s t : Part) : Prop extends SameRecorder s t where
  laneEq : t.lane = s.lane

theorem SameFrame.refl (s : Part) : SameFrame s s := by
  constructor <;> first | rfl | exact Answered.refl _ _ | exact fun _ h => h | exact fun _ => rfl

theorem SameFrame.trans {s t u : Part} (h : SameFrame s t) (k : SameFrame t u) : SameFrame s u where
  now := k.now.trans h.now
  gateway := k.gateway.trans h.gateway
  lens := k.lens.trans h.lens
  sync := k.sync.trans h.sync
  portA := k.portA.trans h.portA
  portB := k.portB.trans h.portB
  lane := h.lane.trans h.tickets k.lane
  tickets := fun n hn => h.tickets n (k.tickets n hn)
  axes := k.axes.trans h.axes
  timing := k.timing.trans h.timing
  sigma := k.sigma.trans h.sigma
  memory := k.memory.trans h.memory
  freeze := k.freeze.trans h.freeze
  clearing := k.clearing.trans h.clearing
  scanComplete := k.scanComplete.trans h.scanComplete
  scan := k.scan.trans h.scan
  serial := k.serial.trans h.serial
  cueSlots := fun i => (k.cueSlots i).trans (h.cueSlots i)
  pointerRun := k.pointerRun.trans h.pointerRun

theorem SameStops.refl (s : Part) : SameStops s s := { SameFrame.refl s with seq := rfl, zone := rfl }

theorem SameStops.trans {s t u : Part} (h : SameStops s t) (k : SameStops t u) : SameStops s u :=
  { h.toSameFrame.trans k.toSameFrame with seq := k.seq.trans h.seq, zone := k.zone.trans h.zone }

theorem SameRecorder.refl (s : Part) : SameRecorder s s :=
  { SameStops.refl s with recorder := rfl, directory := rfl }

theorem SameRecorder.trans {s t u : Part} (h : SameRecorder s t) (k : SameRecorder t u) :
    SameRecorder s u :=
  { h.toSameStops.trans k.toSameStops with
    recorder := k.recorder.trans h.recorder, directory := k.directory.trans h.directory }

theorem SameLane.refl (s : Part) : SameLane s s := { SameRecorder.refl s with laneEq := rfl }

theorem SameLane.trans {s t u : Part} (h : SameLane s t) (k : SameLane t u) : SameLane s u :=
  { h.toSameRecorder.trans k.toSameRecorder with laneEq := k.laneEq.trans h.laneEq }

end Sys2Proof.Machine
end

