-- ==== Sys2Proof/Laws/PerInstr.lean ====
section
/-! SUPPORT. Per command: the record of a well-formed request is at least as long as the catalogue of
section 11.3 asks of its kind, and at most the 480 bytes of R20. -/

namespace Sys2Proof.Laws.RecordFits

open Sys2Proof.Machine

/-- R20, section 11.3: the record of a well-formed request is not malformed by its length. -/
def Statement (i : Instr) : Prop :=
  i.wf = true → ∀ k, kindOf i = some k →
    ∃ m, minLength k = some m ∧ m ≤ (encodeRecord i).length ∧ (encodeRecord i).length ≤ 480

/-- A command that is not a request has no record. -/
theorem of_none {i : Instr} (h : kindOf i = none) : Statement i := fun _ k hk => by
  rw [h] at hk
  cases hk

/-- A request whose body is of a known length. -/
theorem of_length {i : Instr} {k : Byte} {m n : Nat} (hk : kindOf i = some k)
    (hm : minLength k = some m) (hn : i.wf = true → (bodyOf i).length = n) (hl : m ≤ 4 + n) (hh : n ≤ 476) :
    Statement i := fun hw k' hk' => by
  rw [hk] at hk'
  cases hk'
  refine ⟨m, hm, ?_⟩
  simp only [encodeRecord, hk, recordBytes, List.length_append, leBytes_length, hn hw, List.length_cons,
    List.length_nil]
  omega

theorem cycleFrame (time : Nat) (frame : List Byte) : Statement (.cycleFrame time frame) := of_none rfl

theorem fillCycle : Statement .fillCycle := of_none rfl

theorem driveFrameReturn (frame : List Byte) : Statement (.driveFrameReturn frame) := of_none rfl

theorem malformedRecord (kind : Byte) (tag : Byte) : Statement (.malformedRecord kind tag) := of_none rfl

theorem unknownRecord (kind : Byte) (tag : Byte) : Statement (.unknownRecord kind tag) := of_none rfl

theorem gatewaySet (tag : Byte) (period : Nat) (missLimit : Nat) : Statement (.gatewaySet tag period missLimit) :=
  of_length (k := 0x01#8) (m := 7) (n := 3) rfl rfl
    (fun _ => rfl) (by omega) (by omega)

theorem mode (tag : Byte) (want : Nat) : Statement (.mode tag want) :=
  of_length (k := 0x02#8) (m := 5) (n := 1) rfl rfl
    (fun _ => rfl) (by omega) (by omega)

theorem restart (tag : Byte) : Statement (.restart tag) :=
  of_length (k := 0x03#8) (m := 4) (n := 0) rfl rfl
    (fun _ => rfl) (by omega) (by omega)

theorem reset (eStopOpen : Bool) (guardOpen : Bool) : Statement (.reset eStopOpen guardOpen) := of_none rfl

theorem axisSet (tag : Byte) (target : Nat) (record : AxisSetRecord) : Statement (.axisSet tag target record) :=
  of_length (k := 0x10#8) (m := 44) (n := 40) rfl rfl
    (fun _ => by cases record <;> rfl) (by omega) (by omega)

theorem axisRead (tag : Byte) (target : Nat) : Statement (.axisRead tag target) :=
  of_length (k := 0x11#8) (m := 5) (n := 1) rfl rfl
    (fun _ => rfl) (by omega) (by omega)

theorem sourceLive (tag : Byte) (mask : BitVec 16) : Statement (.sourceLive tag mask) :=
  of_length (k := 0x12#8) (m := 6) (n := 2) rfl rfl
    (fun _ => rfl) (by omega) (by omega)

theorem geometrySet (tag : Byte) (body : GeometryFields) : Statement (.geometrySet tag body) :=
  of_length (k := 0x20#8) (m := 28) (n := 24) rfl rfl
    (fun _ => rfl) (by omega) (by omega)

theorem zoneSet (tag : Byte) (body : ZoneFields) : Statement (.zoneSet tag body) :=
  of_length (k := 0x21#8) (m := 44) (n := 40) rfl rfl
    (fun _ => rfl) (by omega) (by omega)

theorem zoneClear (tag : Byte) (index : Nat) : Statement (.zoneClear tag index) :=
  of_length (k := 0x22#8) (m := 5) (n := 1) rfl rfl
    (fun _ => rfl) (by omega) (by omega)

theorem liveZoneUpdate (tag : Byte) (index : Nat) (box : Box) : Statement (.liveZoneUpdate tag index box) :=
  of_length (k := 0x23#8) (m := 32) (n := 28) rfl rfl
    (fun _ => rfl) (by omega) (by omega)

theorem zoneRead (tag : Byte) (index : Nat) : Statement (.zoneRead tag index) :=
  of_length (k := 0x24#8) (m := 5) (n := 1) rfl rfl
    (fun _ => rfl) (by omega) (by omega)

theorem eStopOpen : Statement .eStopOpen := of_none rfl

theorem eStopClose : Statement .eStopClose := of_none rfl

theorem guardOpen : Statement .guardOpen := of_none rfl

theorem guardClose : Statement .guardClose := of_none rfl

theorem stop (tag : Byte) (category : Nat) : Statement (.stop tag category) :=
  of_length (k := 0x30#8) (m := 5) (n := 1) rfl rfl
    (fun _ => rfl) (by omega) (by omega)

theorem stillTimeout : Statement .stillTimeout := of_none rfl

theorem brakeTimer : Statement .brakeTimer := of_none rfl

theorem brakeTimeout : Statement .brakeTimeout := of_none rfl

theorem rearm (tag : Byte) (recover : Nat) : Statement (.rearm tag recover) :=
  of_length (k := 0x31#8) (m := 5) (n := 1) rfl rfl
    (fun _ => rfl) (by omega) (by omega)

theorem releaseTimer : Statement .releaseTimer := of_none rfl

theorem armingTimeout : Statement .armingTimeout := of_none rfl

theorem continueStop (tag : Byte) : Statement (.continueStop tag) :=
  of_length (k := 0x32#8) (m := 4) (n := 0) rfl rfl
    (fun _ => rfl) (by omega) (by omega)

theorem lensModeSet (tag : Byte) (channel : Nat) (mode : Nat) : Statement (.lensModeSet tag channel mode) :=
  of_length (k := 0x40#8) (m := 6) (n := 2) rfl rfl
    (fun _ => rfl) (by omega) (by omega)

theorem lensPoints (tag : Byte) (body : LensPointsFields) : Statement (.lensPoints tag body) := fun hw k hk => by
  cases hk
  refine ⟨8, rfl, ?_⟩
  have hp : ∀ ps : List LensPair,
      (ps.flatMap fun p => leBytes 4 p.phys ++ leBytesInt 4 p.count).length = 8 * ps.length := by
    intro ps
    induction ps with
    | nil => rfl
    | cons p ps ih =>
      simp only [List.flatMap_cons, List.length_append, ih, leBytes_length, leBytesInt_length,
        List.length_cons]
      omega
  simp only [Instr.wf, LensPointsFields.wf, Bool.and_eq_true, decide_eq_true_eq] at hw
  simp only [encodeRecord, kindOf, recordBytes, bodyOf, List.length_append, hp, spare, leBytes_length,
    List.length_replicate, List.length_cons, List.length_nil]
  omega

theorem lensCommit (tag : Byte) (channel : Nat) (count : Nat) : Statement (.lensCommit tag channel count) :=
  of_length (k := 0x42#8) (m := 6) (n := 2) rfl rfl
    (fun _ => rfl) (by omega) (by omega)

theorem lensTableRead (tag : Byte) (body : TableReadFields) : Statement (.lensTableRead tag body) :=
  of_length (k := 0x43#8) (m := 8) (n := 4) rfl rfl
    (fun _ => rfl) (by omega) (by omega)

theorem targetUpdate (tag : Byte) (body : TargetFields) : Statement (.targetUpdate tag body) :=
  of_length (k := 0x44#8) (m := 24) (n := 20) rfl rfl
    (fun _ => rfl) (by omega) (by omega)

theorem syncEdge (time : Nat) : Statement (.syncEdge time) := of_none rfl

theorem lossTime : Statement .lossTime := of_none rfl

theorem edgeSynthesis : Statement .edgeSynthesis := of_none rfl

theorem phasePointExpiry : Statement .phasePointExpiry := of_none rfl

theorem syncSet (tag : Byte) (weight : Nat) (preset : Nat) (value : Nat) : Statement (.syncSet tag weight preset value) :=
  of_length (k := 0x50#8) (m := 12) (n := 8) rfl rfl
    (fun _ => rfl) (by omega) (by omega)

theorem pageReadComplete : Statement .pageReadComplete := of_none rfl

theorem pageProgramComplete : Statement .pageProgramComplete := of_none rfl

theorem bayEraseComplete : Statement .bayEraseComplete := of_none rfl

theorem scanReadComplete : Statement .scanReadComplete := of_none rfl

theorem directoryRead (tag : Byte) (slot : Nat) : Statement (.directoryRead tag slot) :=
  of_length (k := 0x66#8) (m := 5) (n := 1) rfl rfl
    (fun _ => rfl) (by omega) (by omega)

theorem takeErase (tag : Byte) (slot : Nat) : Statement (.takeErase tag slot) :=
  of_length (k := 0x62#8) (m := 5) (n := 1) rfl rfl
    (fun _ => rfl) (by omega) (by omega)

theorem takeLock (tag : Byte) (slot : Nat) : Statement (.takeLock tag slot) :=
  of_length (k := 0x63#8) (m := 5) (n := 1) rfl rfl
    (fun _ => rfl) (by omega) (by omega)

theorem protectionFreeze (tag : Byte) : Statement (.protectionFreeze tag) :=
  of_length (k := 0x64#8) (m := 4) (n := 0) rfl rfl
    (fun _ => rfl) (by omega) (by omega)

theorem arrayClear (tag : Byte) : Statement (.arrayClear tag) :=
  of_length (k := 0x65#8) (m := 4) (n := 0) rfl rfl
    (fun _ => rfl) (by omega) (by omega)

theorem takeRead (tag : Byte) (slot : Nat) (page : Nat) : Statement (.takeRead tag slot page) :=
  of_length (k := 0x67#8) (m := 12) (n := 8) rfl rfl
    (fun _ => rfl) (by omega) (by omega)

theorem takeImport (tag : Byte) (body : ImportFields) : Statement (.takeImport tag body) :=
  of_length (k := 0x68#8) (m := 12) (n := 8) rfl rfl
    (fun _ => by simp [bodyOf, leBytes_length]) (by omega) (by omega)

theorem pageWrite (tag : Byte) (slot : Nat) (page : List Byte) : Statement (.pageWrite tag slot page) := fun hw k hk => by
  cases hk
  refine ⟨262, rfl, ?_⟩
  simp only [Instr.wf, Bool.and_eq_true, decide_eq_true_eq] at hw
  simp only [encodeRecord, kindOf, recordBytes, bodyOf, List.length_append, spare, leBytes_length,
    List.length_replicate, List.length_cons, List.length_nil]
  omega

theorem importClose (tag : Byte) (slot : Nat) : Statement (.importClose tag slot) :=
  of_length (k := 0x6A#8) (m := 5) (n := 1) rfl rfl
    (fun _ => rfl) (by omega) (by omega)

theorem recordStart (tag : Byte) (body : RecordStartFields) : Statement (.recordStart tag body) :=
  of_length (k := 0x60#8) (m := 10) (n := 6) rfl rfl
    (fun _ => rfl) (by omega) (by omega)

theorem recordStop (tag : Byte) : Statement (.recordStop tag) :=
  of_length (k := 0x61#8) (m := 4) (n := 0) rfl rfl
    (fun _ => rfl) (by omega) (by omega)

theorem cueWrite (tag : Byte) (body : CueFields) : Statement (.cueWrite tag body) :=
  of_length (k := 0x70#8) (m := 20) (n := 16) rfl rfl
    (fun _ => rfl) (by omega) (by omega)

theorem cueRead (tag : Byte) (index : Nat) : Statement (.cueRead tag index) :=
  of_length (k := 0x71#8) (m := 5) (n := 1) rfl rfl
    (fun _ => rfl) (by omega) (by omega)

theorem cuePoll (tag : Byte) : Statement (.cuePoll tag) :=
  of_length (k := 0x72#8) (m := 4) (n := 0) rfl rfl
    (fun _ => rfl) (by omega) (by omega)

theorem playerStart (tag : Byte) (interval : Nat) : Statement (.playerStart tag interval) :=
  of_length (k := 0x73#8) (m := 6) (n := 2) rfl rfl
    (fun _ => rfl) (by omega) (by omega)

theorem autoPoll : Statement .autoPoll := of_none rfl

theorem go (tag : Byte) : Statement (.go tag) :=
  of_length (k := 0x75#8) (m := 4) (n := 0) rfl rfl
    (fun _ => rfl) (by omega) (by omega)

theorem resume (tag : Byte) : Statement (.resume tag) :=
  of_length (k := 0x76#8) (m := 4) (n := 0) rfl rfl
    (fun _ => rfl) (by omega) (by omega)

theorem abandon (tag : Byte) : Statement (.abandon tag) :=
  of_length (k := 0x77#8) (m := 4) (n := 0) rfl rfl
    (fun _ => rfl) (by omega) (by omega)

theorem playerStop (tag : Byte) : Statement (.playerStop tag) :=
  of_length (k := 0x74#8) (m := 4) (n := 0) rfl rfl
    (fun _ => rfl) (by omega) (by omega)

end Sys2Proof.Laws.RecordFits
end

