-- ==== Sys2Proof/Laws/Work.lean ====
section
/-! SUPPORT. The relations of Frames.lean, function by function: the player, the take array controller,
the recorder and the stop sequencer. -/

namespace Sys2Proof.Machine

/-! ## The player -/

/-- An update of the player, of the shaped channels and of the player's reads. -/
theorem SameLane.intro {s t : Part} (p : Player) (c : Vector Channel 12) (pj : List Job)
    (o : Option Operation) (n : Nat)
    (ht : t = { s with
      player := p
      shaper := { s.shaper with chans := c }
      array := { s.array with playerJobs := pj, operation := o }
      freeCount := n })
    (ho : ({ s.array with playerJobs := pj, operation := o } : TakeArray).tickets = s.array.tickets)
    (hc : ∀ i : CueIx, p.cues[i].slot = s.player.cues[i].slot)
    (hr : p.autoInterval = s.player.autoInterval) : SameLane s t := by
  subst ht
  constructor
  case laneEq => rfl
  constructor
  case recorder => rfl
  case directory => rfl
  constructor
  case seq => rfl
  case zone => rfl
  constructor
  case lane => exact Answered.refl _ _
  case tickets => intro x hx; rw [← ho]; exact hx
  case cueSlots => exact hc
  case pointerRun => exact hr
  all_goals rfl

/-- An update of the player alone. -/
theorem SameLane.player {s : Part} (p : Player) (hc : ∀ i : CueIx, p.cues[i].slot = s.player.cues[i].slot)
    (hr : p.autoInterval = s.player.autoInterval) : SameLane s { s with player := p } :=
  SameLane.intro p s.shaper.chans s.array.playerJobs s.array.operation s.freeCount rfl rfl hc hr

theorem Part.dropReads_same (s : Part) : SameLane s s.dropReads :=
  SameLane.intro _ s.shaper.chans [] s.array.withdrawReads.operation s.freeCount rfl
    (tickets_withdrawReads s.array) (fun _ => rfl) rfl

theorem Player.returnCue_slot (p : Player) (status : CueStatus) (i : CueIx) :
    (p.returnCue status).cues[i].slot = p.cues[i].slot := by
  simp only [Player.returnCue, Player.current, Fin.getElem_fin, Vector.getElem_set]
  split
  · rename_i h
    simp only [h]
  · rfl

theorem Part.failCue_same (s : Part) (status : CueStatus) : SameLane s (s.failCue status) :=
  s.dropReads_same.trans (SameLane.player _ (fun i => Player.returnCue_slot _ _ i) rfl)

theorem Part.judgeTake_ok {s : Part} {p : Player} (h : s.judgeTake = .ok p) :
    p.cues = s.player.cues ∧ p.autoInterval = s.player.autoInterval := by
  unfold Part.judgeTake at h
  dsimp only at h
  split at h
  · simp at h
  · split at h
    · simp at h
    · split at h
      · simp only [Except.ok.injEq] at h
        subst h
        exact ⟨rfl, rfl⟩
      · simp at h

theorem Part.fetchRounds_same (n : Nat) (s : Part) : SameLane s (Part.fetchRounds n s) := by
  induction n generalizing s with
  | zero => exact SameLane.refl s
  | succ n ih =>
    unfold Part.fetchRounds
    split
    · exact SameLane.player _ (fun _ => rfl) rfl
    · split
      · exact (s.failCue_same _).trans (ih _)
      · rename_i p hp
        have hk := Part.judgeTake_ok hp
        exact SameLane.intro _ s.shaper.chans _ s.array.operation s.freeCount rfl rfl
          (fun i => by simp [hk.1]) hk.2

theorem Part.enterFetching_same (s : Part) : SameLane s s.enterFetching := Part.fetchRounds_same 17 s

theorem Part.enterApproaching_same (s : Part) : SameLane s s.enterApproaching :=
  SameLane.intro _ _ s.array.playerJobs s.array.operation s.freeCount rfl rfl (fun _ => rfl) rfl

theorem Part.finishFetch_same (s : Part) (st : Standing) : SameLane s (s.finishFetch st) := by
  unfold Part.finishFetch
  dsimp only
  split
  · refine SameLane.trans (t := { s with freeCount := s.freeAfter st, player := { s.player with
        held := s.takeValues st s.player.tauStart
        prefetch := s.player.prefetch.take 4
        haltReason := .none
        goLatch := false
        resumed := false } }) ?_ (Part.enterApproaching_same _)
    exact SameLane.intro _ s.shaper.chans s.array.playerJobs s.array.operation (s.freeAfter st) rfl rfl
      (fun _ => rfl) rfl
  · refine SameLane.trans (t := { s with freeCount := s.freeAfter st }) ?_
      ((Part.failCue_same _ _).trans (Part.enterFetching_same _))
    exact SameLane.intro s.player s.shaper.chans s.array.playerJobs s.array.operation (s.freeAfter st)
      rfl rfl (fun _ => rfl) rfl

@[simp] theorem Player.dropBefore_cues (p : Player) (k : Option WalkedPage) :
    (p.dropBefore k).cues = p.cues := by cases k <;> rfl
@[simp] theorem Player.dropBefore_auto (p : Player) (k : Option WalkedPage) :
    (p.dropBefore k).autoInterval = p.autoInterval := by cases k <;> rfl
@[simp] theorem Player.dropBefore_state (p : Player) (k : Option WalkedPage) :
    (p.dropBefore k).state = p.state := by cases k <;> rfl

theorem Part.fetchArrived_same (s : Part) (page : Nat) (data : Option (List Byte)) :
    SameLane s (s.fetchArrived page data) := by
  unfold Part.fetchArrived
  split
  · exact (s.failCue_same _).trans (Part.enterFetching_same _)
  · split
    · exact (s.failCue_same _).trans (Part.enterFetching_same _)
    · dsimp only
      split
      · exact (SameLane.player _ (by simp) (by simp)).trans (Part.finishFetch_same _ _)
      · exact SameLane.intro _ s.shaper.chans _ s.array.operation s.freeCount rfl rfl (by simp) (by simp)

theorem Part.fillRounds_same (n : Nat) (s : Part) : SameLane s (Part.fillRounds n s) := by
  induction n generalizing s with
  | zero => exact SameLane.refl s
  | succ n ih =>
    unfold Part.fillRounds
    split
    · refine SameLane.trans ?_ (ih _)
      exact SameLane.intro s.player s.shaper.chans _ s.array.operation s.freeCount rfl rfl (fun _ => rfl) rfl
    · exact SameLane.refl s

theorem Part.fillPrefetch_same (s : Part) : SameLane s s.fillPrefetch := Part.fillRounds_same 4 s

theorem Part.enterPlaying_same (s : Part) : SameLane s s.enterPlaying := by
  refine SameLane.player _ (fun i => ?_) rfl
  simp only [Player.current, Fin.getElem_fin, Vector.getElem_set]
  split
  · rename_i h
    simp only [h]
  · rfl

theorem Part.takeLatchedGo_same (s : Part) : SameLane s s.takeLatchedGo := by
  unfold Part.takeLatchedGo
  split
  · exact s.enterPlaying_same
  · exact SameLane.refl s

theorem Part.prefetchArrived_same (s : Part) (page : Nat) (data : Option (List Byte)) :
    SameLane s (s.prefetchArrived page data) := by
  unfold Part.prefetchArrived
  refine SameLane.trans ?_ (Part.takeLatchedGo_same _)
  exact SameLane.player _ (fun _ => rfl) rfl

theorem Part.playerReadDone_same (s : Part) (page : Nat) (data : Option (List Byte)) :
    SameLane s (s.playerReadDone page data) := by
  unfold Part.playerReadDone
  split
  · exact s.fetchArrived_same page data
  all_goals first | exact SameLane.refl s | exact s.prefetchArrived_same page data

theorem Part.makeStep_same (s : Part) (tau : Nat) (st : Standing) : SameLane s (s.makeStep tau st) := by
  unfold Part.makeStep
  exact (SameLane.intro _ s.shaper.chans s.array.playerJobs s.array.operation (s.freeAfter st) rfl rfl
    (by simp) (by simp)).trans (Part.fillPrefetch_same _)

theorem Part.liveMarkTaken_same (s : Part) (phase : Nat) : SameLane s (s.liveMarkTaken phase) := by
  unfold Part.liveMarkTaken
  dsimp only
  split
  · exact SameLane.refl s
  · exact SameLane.player _ (fun _ => rfl) rfl

theorem Part.markToPlayer_same (s : Part) (phase : Nat) : SameLane s (s.markToPlayer phase) := by
  unfold Part.markToPlayer
  split
  · exact s.liveMarkTaken_same phase
  · split
    · exact s.enterPlaying_same.trans (Part.liveMarkTaken_same _ _)
    · exact SameLane.refl s

theorem SameLane.shaper {s : Part} (c : Vector Channel 12) :
    SameLane s { s with shaper := { s.shaper with chans := c } } :=
  SameLane.intro s.player c s.array.playerJobs s.array.operation s.freeCount rfl rfl (fun _ => rfl) rfl

theorem Part.endCue_same (s : Part) : SameLane s s.endCue :=
  (SameLane.shaper _).trans ((Part.failCue_same _ _).trans (Part.enterFetching_same _))

theorem Part.playerStopNotice_same (s : Part) : SameLane s s.playerStopNotice := by
  unfold Part.playerStopNotice
  dsimp only
  split
  case h_4 => exact s.dropReads_same.trans (SameLane.player _ (fun _ => rfl) rfl)
  case h_8 => exact (s.failCue_same _).trans (SameLane.player _ (fun _ => rfl) rfl)
  all_goals first | exact SameLane.refl s | exact SameLane.player _ (fun _ => rfl) rfl

theorem Player.setupCue_slot (p : Player) (i : CueIx) : (p.setupCue i).slot = p.cues[i].slot := by
  unfold Player.setupCue
  dsimp only
  split <;> rfl

theorem Part.returnAllCues_same (s : Part) : SameLane s s.returnAllCues :=
  s.dropReads_same.trans (SameLane.player _ (fun i => by
    simp only [Fin.getElem_fin, Vector.getElem_ofFn]
    exact Player.setupCue_slot _ _) rfl)

theorem Part.stopPlayer_same (s : Part) (status : CueStatus) : SameLane s (s.stopPlayer status) :=
  (s.failCue_same _).trans (SameLane.player _ (fun _ => rfl) rfl)

/-! ### The player's state -/

/-- A player that plays nothing is left in its state by a completed read. -/
theorem Part.playerReadDone_idle {s : Part} (h : s.player.state.idle = true) (page : Nat)
    (data : Option (List Byte)) : (s.playerReadDone page data).player.state = s.player.state := by
  unfold Part.playerReadDone
  split
  case h_7 hs =>
    unfold Part.prefetchArrived Part.takeLatchedGo
    dsimp only
    rw [if_neg (by simp [hs])]
  all_goals first | rfl | simp_all [PlayerState.idle]

theorem Part.playerStopNotice_idle (s : Part) : s.playerStopNotice.player.state.idle = true := by
  unfold Part.playerStopNotice
  dsimp only
  split
  all_goals first | rfl | simp_all [PlayerState.idle]

/-! ## The take array controller -/

theorem SameRecorder.array {s : Part} (t : TakeArray) (ht : ∀ n ∈ t.tickets, n ∈ s.array.tickets)
    (hm : t.memory = s.array.memory) (hf : t.freeze = s.array.freeze)
    (hc : t.clearing = s.array.clearing) (hsc : t.scanComplete = s.array.scanComplete)
    (hs : t.scan = s.array.scan) (hn : t.serial = s.array.serial)
    (hd : t.directory = s.array.directory) : SameRecorder s { s with array := t } := by
  constructor
  case recorder => rfl
  case directory => exact hd
  constructor
  case seq => rfl
  case zone => rfl
  constructor
  case lane => exact Answered.refl _ _
  case tickets => exact ht
  case memory => exact hm
  case freeze => exact hf
  case clearing => exact hc
  case scanComplete => exact hsc
  case scan => exact hs
  case serial => exact hn
  all_goals first | rfl | exact fun _ => rfl

theorem SameRecorder.answer {s : Part} {n : Nat} (h : n ∈ s.array.tickets) (code : ResultCode)
    (data : List Byte) : SameRecorder s (s.answer n code data) := by
  constructor
  case recorder => rfl
  case directory => rfl
  constructor
  case seq => rfl
  case zone => rfl
  constructor
  case lane => exact Answered.answer h _ _
  case tickets => exact fun _ h => h
  all_goals first | rfl | exact fun _ => rfl

/-- The job is told unavailable: only its own reply is answered. -/
theorem Part.jobUnavailable_same {s : Part} {j : Job} (h : ∀ n, j.ticket = some n → n ∈ s.array.tickets) :
    SameRecorder s (s.jobUnavailable j) := by
  cases j <;> unfold Part.jobUnavailable <;> dsimp only
  case playerRead => exact (s.playerReadDone_same _ _).toSameRecorder
  case takeRead n _ _ => exact SameRecorder.answer (h n rfl) _ _
  case writeData n _ _ _ => exact SameRecorder.answer (h n rfl) _ _
  case lock n _ _ => exact SameRecorder.answer (h n rfl) _ _
  all_goals exact SameRecorder.refl s

end Sys2Proof.Machine
end

