-- ==== Sys2Proof/Laws/Requests.lean ====
section
/-! SUPPORT. What reading a request does to the part: with room in the queue, a request answered at once
leaves one Ready entry at the tail, and with the queue full it is dropped. -/

namespace Sys2Proof.Machine

/-- Answering a ticket that no entry of a run of entries holds leaves the run as it is. -/
theorem give_fresh (q : List ReplyEntry) (n : Nat) (a : Answer) (h : ∀ e ∈ q, e.ticket < n) :
    q.map (fun e => e.give n a) = q := by
  induction q with
  | nil => rfl
  | cons e q ih =>
    rw [List.map_cons, ih fun x hx => h x (by simp [hx]),
      ReplyEntry.give_other (Nat.ne_of_lt (h e (by simp)))]

/-- The entry just reserved, answered: the lane as `push` gives it. -/
theorem ServiceLane.answer_reserve (l : ServiceLane) (kind tag : Byte) (a : Answer)
    (h : ∀ e ∈ l.queue, e.ticket < l.nextTicket) :
    (l.reserve kind tag).answer l.nextTicket a = l.push kind tag a := by
  simp only [ServiceLane.answer, ServiceLane.reserve, ServiceLane.push, List.map_append,
    List.map_cons, List.map_nil, give_fresh _ _ _ h]
  simp [ReplyEntry.give]

/-- A request answered at once: `t` is the part it leaves, less the reply. -/
theorem serveRequest_answered {kind tag : Byte} {run : Nat → Part → Served} {s t : Part} {a : Answer}
    (hr : s.Room)
    (hrun : run s.lane.nextTicket { s with lane := s.lane.reserve kind tag } =
      ({ t with lane := t.lane.reserve kind tag }, some a))
    (hq : t.lane.queue = s.lane.queue) (hn : t.lane.nextTicket = s.lane.nextTicket) :
    serveRequest kind tag run s = t.push kind tag a := by
  unfold serveRequest
  rw [if_neg (by have := hr.room; omega)]
  dsimp only
  rw [hrun]
  simp only [Part.answer, Part.push]
  rw [← hn, ServiceLane.answer_reserve]
  rw [hq, hn]
  exact hr.fresh

/-- A refused request leaves the part with its reply and no other change. -/
theorem serveRequest_refused {kind tag : Byte} {run : Nat → Part → Served} {s : Part} {a : Answer}
    (hr : s.Room)
    (hrun : run s.lane.nextTicket { s with lane := s.lane.reserve kind tag } =
      ({ s with lane := s.lane.reserve kind tag }, some a)) :
    serveRequest kind tag run s = s.push kind tag a :=
  serveRequest_answered hr hrun rfl rfl

/-- R24: a request that finds the queue full. -/
theorem serveRequest_full {kind tag : Byte} {run : Nat → Part → Served} {s : Part}
    (h : queueLimit ≤ s.lane.queue.length) :
    serveRequest kind tag run s = { s with lane := s.lane.drop } := by
  unfold serveRequest
  rw [if_pos h]

/-- A request whose work keeps the relations of Frames.lean from the part with the reply reserved: its
answer stands at the tail of the queue. -/
theorem serveRequest_tail {kind tag : Byte} {run : Nat → Part → Served} {s t : Part} {a : Option Answer}
    (hr : s.Room)
    (hrun : run s.lane.nextTicket { s with lane := s.lane.reserve kind tag } = (t, a))
    (ht : t.lane.tail = some ⟨s.lane.nextTicket, tag, kind, none⟩) :
    (serveRequest kind tag run s).lane.tail = some ⟨s.lane.nextTicket, tag, kind, a⟩ ∧
    ∃ l, serveRequest kind tag run s = { t with lane := l } := by
  unfold serveRequest
  rw [if_neg (by have := hr.room; omega)]
  dsimp only
  rw [hrun]
  cases a with
  | none => exact ⟨ht, t.lane, rfl⟩
  | some a =>
    refine ⟨?_, _, rfl⟩
    simp only [Part.answer, ServiceLane.answer, ServiceLane.tail, List.getLast?_map] at ht ⊢
    rw [ht]
    simp [ReplyEntry.give]

end Sys2Proof.Machine
end

