-- ==== Sys2Proof/Laws/Spelled.lean ====
section
/-! SUPPORT. What the machine computes agrees with the rules as Safety.lean spells them: the hit test, the
ageing, the speed scale, the pairing of lens modes and the held values. -/

namespace Sys2Proof.Machine

/-- R71: the hit test is the rule's. -/
theorem ZoneEntry.hitBy_iff_hits (z : ZoneEntry) (p : Point) : z.hitBy p = true ↔ z.Hits p := by
  rcases z with ⟨state, kind⟩
  cases state <;> cases kind <;>
    simp [ZoneEntry.Hits, ZoneEntry.hitBy, inBox, within] <;> (try omega)

/-- R68: the ageing of an entry is the rule's. -/
theorem ZoneEntry.grow_eq_aged (z : ZoneEntry) : z.grow = z.aged := by
  rcases z with ⟨state⟩
  cases state <;> rfl

/-- A fold that lowers a bound to the scale of each marked entry ends at the least of them. -/
theorem foldl_min_scale (marked : ZoneIx → Bool) (scale : ZoneIx → Nat) (l : List ZoneIx) (top : Nat) :
    let least := l.foldl (fun acc i => if marked i then min acc (scale i) else acc) top
    least ≤ top ∧ (∀ i ∈ l, marked i = true → least ≤ scale i) ∧
      (least = top ∨ ∃ i ∈ l, marked i = true ∧ least = scale i) := by
  induction l generalizing top with
  | nil => simp
  | cons i l ih =>
    obtain ⟨low, each, hit⟩ := ih (if marked i then min top (scale i) else top)
    simp only [List.foldl_cons, List.mem_cons, forall_eq_or_imp, exists_eq_or_imp]
    cases h : marked i <;> simp only [h, if_true, Bool.false_eq_true, if_false] at low each hit ⊢
    · exact ⟨low, ⟨by simp, each⟩, hit.imp_right .inr⟩
    · refine ⟨by omega, ⟨by omega, each⟩, ?_⟩
      rcases hit with hit | hit
      · rcases Nat.le_total top (scale i) with le | le
        · exact .inl (by omega)
        · exact .inr (.inl ⟨trivial, by omega⟩)
      · exact .inr (.inr hit)

/-- R74: the speed scale worked out is the rule's. -/
theorem ZoneMonitor.speedScale_worksOut (z : ZoneMonitor) : z.WorksOut z.speedScale := by
  obtain ⟨low, each, hit⟩ := foldl_min_scale
    (fun i => z.stopHits.getLsbD i.val && decide (z.zones[i].kind = .slow)) (fun i => z.zones[i].scale)
    (List.finRange 16) 4096
  simp only [List.mem_finRange, true_and, forall_const, Bool.and_eq_true, decide_eq_true_eq] at low each hit
  unfold ZoneMonitor.WorksOut ZoneMonitor.speedScale
  simp only [Bool.and_eq_true, decide_eq_true_eq]
  cases z.recovery <;> simp only [if_true, Bool.false_eq_true, if_false]
  · exact ⟨low, by simp, fun i h => each i h, hit.imp_right .inr⟩
  · refine ⟨by omega, fun _ => by omega, fun i h => Nat.le_trans (Nat.min_le_left _ _) (each i h), ?_⟩
    rcases Nat.le_total _ 256 with le | le
    · rw [Nat.min_eq_left le]
      exact hit.imp_right .inr
    · exact .inr (.inl ⟨trivial, Nat.min_eq_right le⟩)

/-- R176: the pairing of lens modes is the rule's. -/
theorem Part.modesOk_iff (s : Part) (played : Mask) (info : TakeInfo) :
    s.modesOk played info = true ↔ s.ModesPair played info := by
  have pairs (a b : LensMode) : modesMatch a b = true ↔
      (a = .direct ∧ b = .direct) ∨ ((a = .map ∨ a = .follow) ∧ (b = .map ∨ b = .follow)) := by
    cases a <;> cases b <;> simp [modesMatch]
  simp only [Part.modesOk, Part.ModesPair, List.all_eq_true, List.mem_finRange, forall_const,
    Bool.or_eq_true, Bool.not_eq_true', pairs, Mask.has]
  refine forall_congr' fun l => ?_
  show played.getLsbD (l.val + 8) = false ∨ _ ↔ _
  cases played.getLsbD (l.val + 8) <;> simp

/-- R176, R187: a held value is judged as the rule has it. -/
theorem Part.heldInside_iff (s : Part) (held : Vector (Option Int) 12) (c : Slot) :
    s.heldInside held c = true ↔ ∀ v, held[c] = some v → s.ValueInside c v := by
  have physical (m : LensMode) : m.physical = true ↔ m = .map ∨ m = .follow := by cases m <;> decide
  have count (v : Int) : s.ValueInside c v ↔
      (s.window c).1 ≤ s.valueCount c v ∧ s.valueCount c v ≤ (s.window c).2 := by
    unfold Part.ValueInside Part.valueCount
    cases lensOf c with
    | none => rfl
    | some l =>
      simp only [physical]
      split <;> rfl
  unfold Part.heldInside
  cases held[c] with
  | none => simp
  | some v => simp [count]

end Sys2Proof.Machine
end

