-- ==== Sys2Proof/Tests/Slice0.lean ====
section
/-! SUPPORT. Tests: the smoke tests of WellFormed, the manual's worked examples and tables, records written
out from section 11.3, and for every obligation with hypotheses a concrete state and operands that meet
them. -/

namespace Sys2Proof.Tests

-- One test after another: the kernel's evaluations need no thread of their own each.
set_option Elab.async false

open Sys2Proof Sys2Proof.Machine

/-! ## Helpers -/

/-- A state with nothing waiting. -/
def at' (p : Part) : State := ⟨p, []⟩

/-- The part an execution leaves. -/
def after (c : Instr) (p : Part) : Part :=
  match exec c (at' p) with
  | .next s => s.part
  | .fault _ => Part.reset
  | .refused _ => Part.reset

/-- The result code of the reply at the tail of the queue after a command. -/
def code (c : Instr) (p : Part) : Option ResultCode :=
  ((after c p).lane.tail.bind (·.answer)).map (·.code)

/-- An empty queue and no request at the array leave room for a reply. -/
theorem room_of {p : Part} (h : p.lane.queue = []) (h2 : p.array.tickets = []) : p.Room :=
  ⟨by rw [h]; decide, (by rw [h]; intro e he; cases he), (by rw [h2]; intro n hn; cases hn)⟩

/-- The swing of the worked examples of chapters 3 to 5. -/
def swing : AxisRecord :=
  { AxisRecord.reset 1 with
    present := true, set := true, pmin := -300000, pmax := 300000, vmax := 67108864
    amax := 11453, astop := 11453, still := 5, brakePresent := true, confirm := .either }

/-- A fresh, answered feedback. -/
def feedbackAt (n : Int) : Feedback := ⟨n, ⟨true, false, true, true, false⟩, false⟩

/-- After reset, the scan over, in Setup. -/
def idle : Part := { Part.reset with
  array := { Part.reset.array with scanComplete := true, scan := none } }

/-- In Setup with the swing present, its drive answering at 131,072. -/
def rigged : Part := { idle with
  shaper := { idle.shaper with axes := idle.shaper.axes.set 1 swing }
  gateway := { idle.gateway with feedback := idle.gateway.feedback.set 1 (feedbackAt 131072) } }

/-- In Run, in Safe-Off. -/
def ready : Part := { rigged with lane := { rigged.lane with mode := .run } }

/-- A stop state, its output closed outside Safe-Off. -/
def inState (p : Part) (st : StopState) : Part := { p with
  seq := { p.seq with state := st, chainClosed := decide (st ≠ .safeOff) } }

/-- In Run, in Running, the swing on Live moving at 87 BAU per cycle (section 3.3). -/
def running : Part :=
  let p := inState ready .running
  let c : Channel := { Channel.reset with source := .live, p := 8589934592, v := 5701632 }
  { p with shaper := { p.shaper with chans := p.shaper.chans.set 1 c } }

theorem idle_room : idle.Room := room_of rfl (by decide)
theorem ready_room : ready.Room := room_of rfl (by decide)
theorem running_room : running.Room := room_of rfl (by decide)

/-- A cycle frame with a number, no demand valid and a lane (section 11.1). -/
def cycleBytes (cycle : Nat) (lane : List Byte) : List Byte :=
  withCheck (leBytes 2 cycle ++ List.replicate 50 0#8 ++ lane)

/-- A drive frame that came back, every slot with one status byte and a count of 0 (section 11.1). -/
def driveBytes (cycle status : Nat) : List Byte :=
  withCheck (leBytes 2 cycle ++ [0, 0] ++
    (List.replicate 12 ([0, 0, 0, 0, 0, byteOf status, 0, 0, 0, 0, 0, 0] : List Byte)).flatten)

/-! ## WellFormed: an ill-formed term for each check -/

theorem test_wf_unknown : (Instr.unknownRecord 0x75#8 1).wf = false := by decide
theorem test_wf_gateway : (Instr.gatewaySet 1 65536 3).wf = false ∧
    (Instr.gatewaySet 1 1000 256).wf = false := by decide
theorem test_wf_bytes : (Instr.mode 1 256).wf = false ∧ (Instr.axisRead 1 256).wf = false ∧
    (Instr.zoneClear 1 256).wf = false ∧ (Instr.zoneRead 1 256).wf = false ∧
    (Instr.stop 1 256).wf = false ∧ (Instr.rearm 1 256).wf = false ∧
    (Instr.directoryRead 1 256).wf = false ∧ (Instr.takeErase 1 256).wf = false ∧
    (Instr.takeLock 1 256).wf = false ∧ (Instr.importClose 1 256).wf = false ∧
    (Instr.cueRead 1 256).wf = false := by decide
theorem test_wf_pairs : (Instr.lensModeSet 1 256 0).wf = false ∧ (Instr.lensModeSet 1 8 256).wf = false ∧
    (Instr.lensCommit 1 256 2).wf = false ∧ (Instr.lensCommit 1 8 256).wf = false ∧
    (Instr.takeRead 1 256 0).wf = false ∧ (Instr.takeRead 1 0 4294967296).wf = false ∧
    (Instr.syncSet 1 65536 0 0).wf = false ∧ (Instr.syncSet 1 0 256 0).wf = false ∧
    (Instr.syncSet 1 0 0 4294967296).wf = false ∧ (Instr.playerStart 1 65536).wf = false := by decide

def axisFields : AxisFields :=
  { present := 1, kind := 1, brakePresent := 1, confirm := 2, pmin := -300000, pmax := 300000
    vmax := 67108864, amax := 11453, astop := 11453, following := 0, followCount := 1, still := 5
    divergence := 0 }

def timingFields : TimingFields :=
  { stillDwell := 8, stillMask := 4, brakeMask := 10, stillTimeout := 3000, brakeTimer := 250
    brakeTimeout := 2000, armingTimeout := 4000 }

theorem test_wf_axis : (Instr.axisSet 1 12 (.channel axisFields)).wf = false ∧
    (Instr.axisSet 1 1 (.timing timingFields)).wf = false ∧
    (Instr.axisSet 1 256 (.channel axisFields)).wf = false ∧
    (Instr.axisSet 1 1 (.channel { axisFields with pmin := -2147483649 })).wf = false ∧
    (Instr.axisSet 1 1 (.channel { axisFields with still := 65536 })).wf = false ∧
    (Instr.axisSet 1 12 (.timing { timingFields with brakeTimer := 65536 })).wf = false := by decide

def geometry : GeometryFields :=
  { lb := 400000, x0 := 0, y0 := 0, z0 := 150000, swing := 0, lift := 0 }

/-- Entry 3 of the worked example of section 4.5. -/
def standFields : ZoneFields :=
  { index := 3, state := 1, kind := 0, response := 1
    box := ⟨1310000, 1330000, 420000, 450000, 0, 375000⟩
    margin := 10000, scale := 0, refresh := 0, growth := 0 }

def target : TargetFields := { point := ⟨1691967, 791967, 179614⟩, refresh := 100, offset := -120 }

def recordFields : RecordStartFields := { slot := 7, divisor := 2, trigger := 0, mask := 0x0002#16 }

def importFields : ImportFields :=
  { slot := 7, divisor := 2, mask := 0x0102#16, modes := #v[3, 2, 1, 0] }

def cueFields : CueFields :=
  { index := 5, give := true, lock := true, recordWith := false, takeEnd := false, slot := 9
    trigger := 2, start := 10, endIx := 500, speed := 4096, mask := 0x0002#16 }

theorem test_wf_bodies : (Instr.geometrySet 1 { geometry with x0 := 2147483648 }).wf = false ∧
    (Instr.zoneSet 1 { standFields with margin := 4294967296 }).wf = false ∧
    (Instr.liveZoneUpdate 1 256 ⟨0, 0, 0, 0, 0, 0⟩).wf = false ∧
    (Instr.liveZoneUpdate 1 0 ⟨0, 0, 0, 0, 0, 2147483648⟩).wf = false ∧
    (Instr.lensTableRead 1 ⟨256, 0, 0, 1⟩).wf = false ∧
    (Instr.targetUpdate 1 { target with refresh := 65536 }).wf = false ∧
    (Instr.recordStart 1 { recordFields with divisor := 256 }).wf = false ∧
    (Instr.takeImport 1 { importFields with modes := #v[0, 0, 0, 256] }).wf = false ∧
    (Instr.cueWrite 1 { cueFields with speed := 65536 }).wf = false := by decide

theorem test_wf_lists : (Instr.lensPoints 1 ⟨8, 0, [], 8⟩).wf = false ∧
    (Instr.lensPoints 1 ⟨8, 0, List.replicate 60 ⟨0, 0⟩, 0⟩).wf = false ∧
    (Instr.lensPoints 1 ⟨8, 0, [⟨4294967296, 0⟩], 0⟩).wf = false ∧
    (Instr.pageWrite 1 0 (List.replicate 253 0)).wf = false ∧
    (Instr.pageWrite 1 0 (List.replicate 473 0)).wf = false := by decide +kernel

/-! ## Worked examples and tables of the manual -/

/-- R191: the frame check over "123456789". -/
theorem test_crc32 : crc32 [0x31, 0x32, 0x33, 0x34, 0x35, 0x36, 0x37, 0x38, 0x39] = 0xCBF43926#32 := by
  decide +kernel

/-- R193: the CRC-16 over "123456789". -/
theorem test_crc16 : crc16 [0x31, 0x32, 0x33, 0x34, 0x35, 0x36, 0x37, 0x38, 0x39] = 0x29B1#16 := by
  decide +kernel

/-- Section 3.3, "the swing starts a 7.4° move": B and D. -/
theorem test_braking_speed : brakingSpeed 1416364032 11453 = 5690171 ∧
    stoppingDistance 5701632 11453 = 1416367995 ∧ stoppingDistance 5701632 10000 = 1622580240 := by
  decide +kernel

/-- Section 3.3, "the final approach": the four velocities. -/
theorem test_final_approach :
    let c0 : Channel := { Channel.reset with source := .live, p := 327680000, v := 2500000 }
    let next (c : Channel) := c.shape 331677696 (0, 655360000) 1000000 4000000
    [(next c0).v, (next (next c0)).v, (next (next (next c0))).v, (next (next (next (next c0)))).p] =
      [2332565, 1332565, 332566, 331677696] := by decide +kernel

/-- Section 4.3: the current tip and the stop tip. -/
theorem test_tips :
    let g : Geometry := ⟨400000, 0, 0, 150000, 0, 0⟩
    tipOf g 1000000 131072 65536 200000 = ⟨1391967, 391967, 379614⟩ ∧
    tipOf g 1000000 152684 65536 200000 = ⟨1338062, 439299, 379614⟩ := by decide +kernel

/-- Section 6.5, the iris table: falling counts, the half rounded away from zero. -/
theorem test_iris : let t : List LensPair := [⟨140, 6000⟩, ⟨200, 4000⟩, ⟨280, 1000⟩]
    [forwardMap t 150, forwardMap t 215, reverseMap t 3437, reverseMap t 6000] = [5667, 3437, 215, 140] := by
  decide

/-- Section 6.5, the focus table, and the follow value of section 6.6. -/
theorem test_focus : let t : List LensPair := [⟨1000, 2000⟩, ⟨2000, 9000⟩, ⟨5000, 14000⟩]
    [forwardMap t 3200, forwardMap t 800, forwardMap t 5000, reverseMap t 10000, reverseMap t 20000] =
      [11000, 2000, 14000, 2600, 5000] ∧
    followValue ⟨1391967, 391967, 379614⟩
      { present := true, point := ⟨1691967, 791967, 179614⟩, refresh := 100, offset := -120, age := 1
        stale := false } = 5265 := by decide +kernel

/-- Section 9.4: the position of mark 1,201; section 10.5: values across a hold and a gap. -/
theorem test_take_positions : markPosition 5 64 2 = 172032 ∧
    let w := TakeContext.walk { index := 10, values := none, marks := [] }
      [.sample [1000], .hold 3, .gap 2, .sample [1090]]
    w.2 = [⟨10, [1000]⟩, ⟨13, [1000]⟩, ⟨16, [1090]⟩] ∧
    ([786432, 950272, 1048576].map fun tau => (standingOf w.2 tau).value tau 0x002#12 1) =
      [some 65536000, some 68485120, some 71434240] := by decide +kernel

/-- Section 4.4, "a late tracking update": the second growth. -/
theorem test_late_update :
    let z : ZoneEntry := { ZoneEntry.reset with state := .live, refresh := 3, growth := 400, age := 3
                                                effective := ⟨2000000, 2060000, 100000, 160000, 0, 190000⟩ }
    (z.grow.effective.xmin, z.grow.grow.effective.zmax, z.grow.age) = (1999600, 190800, 4) := by decide

/-- Section 7.4: the interval, the lock and the phase point of the fourth edge. -/
theorem test_locking :
    let p := { idle with sync := { idle.sync with weight := 128 } }
    let q := after (.syncEdge 225130) (after (.syncEdge 183422) (after (.syncEdge 141712)
      (after (.syncEdge 100000) p)))
    (q.sync.state, q.sync.phasePoint, q.sync.lossTime) = (.locked, some 245984, some 287693) := by
  decide +kernel

/-- Section 4.5: the stop tip hits the stand, which posts Zone, Ramp, and the Slow entry's scale is
handed on. -/
theorem test_crew_zone :
    let slow : ZoneEntry := { ZoneEntry.reset with
      state := .static, kind := .slow, scale := 1024
      box := ⟨1200000, 1360000, 300000, 500000, 0, 600000⟩
      effective := ⟨1200000, 1360000, 300000, 500000, 0, 600000⟩ }
    let stand : ZoneEntry := { ZoneEntry.reset with
      state := .static, kind := .keepOut, response := .ramp, margin := 10000
      box := ⟨1310000, 1330000, 420000, 450000, 0, 375000⟩
      effective := ⟨1310000, 1330000, 420000, 450000, 0, 375000⟩ }
    let z : ZoneMonitor := ZoneMonitor.remask { ZoneMonitor.reset with
      zones := (ZoneMonitor.reset.zones.set 3 stand).set 7 slow
      currentTip := ⟨1391967, 391967, 379614⟩, stopTip := ⟨1338062, 439299, 379614⟩ }
    (z.currentHits, z.stopHits, z.causes, z.speedScale) =
      (0x0000#16, 0x0088#16, [(.zone, .ramp, 3)], 1024) := by decide +kernel

/-- Section 3.3: a window that cannot be tightened in time. -/
theorem test_window_tightening :
    let ask (pmax : Int) (amax : Nat) := code (.axisSet 1 1 (.channel { axisFields with
      pmax := pmax, amax := amax })) running
    [ask 152684 11453, ask 152685 11453, ask 152685 10000, ask 350000 11453] =
      [some .unreachable, some .done, some .unreachable, some .wrongMode] := by decide +kernel

/-- Section 1.4: frame 46 after three fill cycles is served, frame 44 is late. -/
theorem test_silence :
    let g := { idle.gateway with cycle := 45, firstFrame := false }
    (g.accepts 46, g.accepts 44, g.accepts 45) = (true, false, false) := by decide

/-! ## Records written out from section 11.3 -/

/-- Gateway and mode: Gateway Set, period 1,000 = 0x03E8, miss limit 3; Mode, Run; Restart. -/
theorem test_record_gateway :
    (laneRecords [0x01, 0x2A, 0x07, 0x00, 0xE8, 0x03, 0x03, 0x02, 0x2B, 0x05, 0x00, 0x01, 0x03, 0x2C, 0x04,
      0x00]).map (·.command) = [.gatewaySet 0x2A#8 1000 3, .mode 0x2B#8 1, .restart 0x2C#8] := by
  decide +kernel

/-- Axes: Source Live with bits 1 and 8; Axis Read of slot 12. -/
theorem test_record_axes :
    (laneRecords [0x12, 0x01, 0x06, 0x00, 0x02, 0x01, 0x11, 0x02, 0x05, 0x00, 0x0C]).map (·.command) =
      [.sourceLive 1 0x0102#16, .axisRead 2 12] := by decide +kernel

/-- Zones: Zone Clear 15; Zone Read 0. Stops: Stop, Hard; Rearm with Recover; Continue. -/
theorem test_record_zones_stops :
    (laneRecords [0x22, 0x01, 0x05, 0x00, 0x0F, 0x24, 0x02, 0x05, 0x00, 0x00, 0x30, 0x03, 0x05, 0x00, 0x02,
      0x31, 0x04, 0x05, 0x00, 0x01, 0x32, 0x05, 0x04, 0x00]).map (·.command) =
      [.zoneClear 1 15, .zoneRead 2 0, .stop 3 2, .rearm 4 1, .continueStop 5] := by decide +kernel

/-- Lens channels: Lens Points, one pair (200, −4,000) at index 63; Lens Commit; Target Update. -/
theorem test_record_lens :
    (laneRecords [0x41, 0x01, 0x10, 0x00, 0x09, 0x3F, 0x00, 0x00, 0xC8, 0x00, 0x00, 0x00, 0x60, 0xF0, 0xFF,
      0xFF, 0x42, 0x02, 0x06, 0x00, 0x09, 0x40]).map (·.command) =
      [.lensPoints 1 ⟨9, 63, [⟨200, -4000⟩], 0⟩, .lensCommit 2 9 64] := by decide +kernel

/-- Camera sync: Sync Set, weight 128, preset, value 86,400 = 0x00015180. -/
theorem test_record_sync :
    (laneRecords [0x50, 0x01, 0x0C, 0x00, 0x80, 0x00, 0x01, 0x00, 0x80, 0x51, 0x01, 0x00]).map (·.command) =
      [.syncSet 1 128 1 86400] := by decide +kernel

/-- Takes: Take Read of slot 7, page 254; Record Start; a kind that is not in the catalogue. -/
theorem test_record_takes :
    (laneRecords [0x67, 0x01, 0x0C, 0x00, 0x07, 0x00, 0x00, 0x00, 0xFE, 0x00, 0x00, 0x00, 0x60, 0x02, 0x0A,
      0x00, 0x07, 0x02, 0x00, 0x00, 0x02, 0x00, 0x7F, 0x03, 0x04, 0x00]).map (·.command) =
      [.takeRead 1 7 254, .recordStart 2 recordFields, .unknownRecord 0x7F#8 3] := by decide +kernel

/-- The player: Cue Write with Give and Lock set; Player Start; Go; then a record one byte short. -/
theorem test_record_player :
    (laneRecords [0x70, 0x01, 0x14, 0x00, 0x05, 0x03, 0x09, 0x02, 0x0A, 0x00, 0x00, 0x00, 0xF4, 0x01, 0x00,
      0x00, 0x00, 0x10, 0x02, 0x00, 0x73, 0x02, 0x06, 0x00, 0x64, 0x00, 0x75, 0x03, 0x04, 0x00, 0x71, 0x04,
      0x05, 0x00]).map (·.command) =
      [.cueWrite 1 cueFields, .playerStart 2 100, .go 3, .malformedRecord 0x71#8 4] := by decide +kernel

/-! ## Witnesses: for every obligation with hypotheses, states and operands that meet them

Each theorem is named after its obligation and follows its clauses in order. -/

/-! ### The service lane and the gateway -/

theorem witness_LaneRecordsRunInOrder : (kindOf (.go 3)).isSome = true ∧
    ((CycleFrame.ofBytes (cycleBytes 46 [0x75, 0x03, 0x04, 0x00])).any fun f =>
      ready.gateway.accepts f.cycle && (laneRecords f.lane).all fun r => !Instr.isRestart r.command) = true := by
  decide +kernel

/-- A queue of n Ready replies. -/
def withReplies (n : Nat) (p : Part) : Part := { p with
  lane := { p.lane with
    queue := (List.range n).map fun i => ⟨i, 0x01#8, 0x75#8, some ⟨.wrongState, []⟩⟩
    nextTicket := n } }

theorem witness_FullQueueDropsRequests : (kindOf (.restart 1)).isSome = true ∧
    32 ≤ (withReplies 32 idle).lane.queue.length := by decide +kernel

theorem witness_RecordsWithoutOwner : idle.Room ∧
    -- the four ways to be malformed, each at its boundary
    ([0x75, 0x01, 0x04] : List Byte).length < 4 ∧
    fieldNat [0x75, 0x01, 0x03, 0x00] 2 2 < 4 ∧
    480 < fieldNat [0x75, 0x01, 0xE1, 0x01] 2 2 ∧
    ([0x71, 0x01, 0x05, 0x00] : List Byte).length < fieldNat [0x71, 0x01, 0x05, 0x00] 2 2 ∧
    (minLength 0x71#8 = some 5 ∧ fieldNat [0x71, 0x01, 0x04, 0x00] 2 2 < 5) ∧
    -- and a record that is not, of a kind of the catalogue and of none
    minLength 0x75#8 = some 4 ∧ fieldNat [0x75, 0x01, 0x04, 0x00] 2 2 = 4 ∧
    (laneRecords [0x75, 0x01, 0x04, 0x00, 0x04, 0x02, 0x04, 0x00]).map (·.command) =
      [.go 1, .unknownRecord 0x04 2] :=
  ⟨idle_room, by decide⟩

theorem witness_RefusedRequestsChangeNothing : ∃ run a, ownerOf (.mode 9 2) = some run ∧
    kindOf (.mode 9 2) = some 0x02#8 ∧ idle.Room ∧
    (run idle.lane.nextTicket { idle with lane := idle.lane.reserve 0x02#8 9 }).2 = some a ∧
    a.code.accepts = false :=
  ⟨_, ⟨.range, []⟩, rfl, rfl, idle_room, rfl, rfl⟩

theorem witness_RecordRoundTrip :
    ([.gatewaySet 0 65535 255, .axisSet 1 255 (.channel axisFields), .axisSet 1 12 (.timing timingFields),
      .zoneSet 2 standFields, .lensPoints 3 ⟨8, 63, List.replicate 59 ⟨4294967295, -2147483648⟩, 0⟩,
      .targetUpdate 4 target, .takeImport 5 importFields, .pageWrite 6 0 (List.replicate 472 0),
      .recordStart 7 recordFields, .cueWrite 8 cueFields] : List Instr).all
      (fun i => i.wf && (kindOf i).isSome) = true := by decide +kernel

theorem witness_FramesNotServed :
    (List.replicate 55 (0 : Byte)).length < 56 ∧ 1536 < (List.replicate 1537 (0 : Byte)).length ∧
    checkGood (List.replicate 56 0) = false ∧
    -- a late frame: the number served last, and one 32,768 ahead of it
    ([46, 32814].all fun n => (CycleFrame.ofBytes (cycleBytes n [])).any fun f =>
      !({ idle.gateway with cycle := 46, firstFrame := false } : Gateway).accepts f.cycle) = true ∧
    ((withReplies 31 idle).lane.queue.length + (laneRecords [0x75, 0x01, 0x04, 0x00]).length ≤ 32 ∧
      ∀ e ∈ (withReplies 31 idle).lane.queue, e.ticket < (withReplies 31 idle).lane.nextTicket) := by
  decide +kernel

theorem witness_ServedFrame :
    ([47, 32813].all fun n => (CycleFrame.ofBytes (cycleBytes n [])).any fun f =>
      ({ idle.gateway with cycle := 46, firstFrame := false } : Gateway).accepts f.cycle &&
        f.lane.isEmpty) = true := by decide +kernel

/-- A running cycle timer. -/
def timed (p : Part) : Part := { p with gateway := { p.gateway with timer := some 1250 } }

theorem witness_FillCycle : (timed running).gateway.timer = some 1250 ∧
    ({ (timed running).gateway with controllerMiss := 2 } : Gateway).missLimit ≤ min 255 (2 + 1) := by
  decide

theorem running_chain : running.ChainLaw := ⟨by decide, by decide, by decide⟩

theorem witness_DriveFrameFlags :
    ((CycleFrame.ofBytes (cycleBytes 1 [])).any fun f =>
      idle.gateway.accepts f.cycle && f.lane.isEmpty && decide (idle.lane.mode = .setup)) = true ∧
    running.ChainLaw ∧
    ((after .fillCycle (timed running)).portB.map fun d => d.slots[(1 : Slot)].torque) = [true] :=
  ⟨by decide +kernel, running_chain, by decide +kernel⟩

/-- A drive frame of cycle 46 is outstanding. -/
def awaiting (p : Part) : Part := { p with gateway := { p.gateway with
  outstanding := some ⟨46, Vector.replicate 12 0, Vector.replicate 12 true⟩ } }

/-- A whole drive frame is read back. -/
theorem driveBytes_read (cycle status : Nat) (h : (driveBytes cycle status).length = 152) :
    ∃ d, DriveReturn.ofBytes (driveBytes cycle status) = some d ∧
      d.cycle = BitVec.ofNat 16 (fieldNat (driveBytes cycle status) 0 2) ∧
      ∀ c : Slot, d.slots[c].status = DriveStatus.ofByte (byteAt (driveBytes cycle status) (9 + 12 * c.val)) :=
  ⟨_, if_pos ⟨h, checkGood_withCheck _⟩, rfl, fun c => by simp⟩

theorem witness_DriveFrameTaken : (∃ o, (awaiting ready).gateway.outstanding = some o ∧ o.cycle = 46) ∧
    (∃ d, DriveReturn.ofBytes (driveBytes 46 1) = some d ∧ d.cycle = 46 ∧
      ∀ c : Slot, d.slots[c].status.fault = false ∧ d.slots[c].status.answered = true) ∧
    (awaiting ready).array.laneJobs = [] ∧
    (driveBytes 46 1).tail.length ≠ 152 ∧ checkGood ((List.replicate 55 0).concat 1) = false ∧
    BitVec.ofNat 16 (fieldNat (driveBytes 47 1) 0 2) ≠ (46 : CycleNo) ∧
    idle.gateway.outstanding = none := by
  obtain ⟨d, hd, hc, hs⟩ := driveBytes_read 46 1 (by decide +kernel)
  refine ⟨⟨_, rfl, rfl⟩, ⟨d, hd, hc.trans (by decide +kernel), fun c => ?_⟩, by decide +kernel⟩
  rw [hs]
  exact (by decide +kernel : ∀ c : Slot,
    (DriveStatus.ofByte (byteAt (driveBytes 46 1) (9 + 12 * c.val))).fault = false ∧
    (DriveStatus.ofByte (byteAt (driveBytes 46 1) (9 + 12 * c.val))).answered = true) c

theorem witness_DriveFaultStops : ready.shaper.axes[Axis.slot 1].present = true ∧
    (∃ d, DriveReturn.ofBytes (driveBytes 46 3) = some d ∧ d.cycle = 46 ∧
      d.slots[Axis.slot 1].status.fault = true) ∧
    ∃ d, DriveReturn.ofBytes (driveBytes 46 0) = some d ∧ d.cycle = 46 ∧
      d.slots[Axis.slot 1].status.answered = false := by
  obtain ⟨d, hd, hc, hs⟩ := driveBytes_read 46 3 (by decide +kernel)
  obtain ⟨e, he, hf, ht⟩ := driveBytes_read 46 0 (by decide +kernel)
  refine ⟨by decide +kernel, ⟨d, hd, hc.trans (by decide +kernel), ?_⟩, e, he, hf.trans (by decide +kernel), ?_⟩
  · rw [hs]; decide +kernel
  · rw [ht]; decide +kernel

theorem witness_RepliesLeaveFromTheHead :
    (takeReplies 10 [⟨0, 1, 2, some ⟨.done, []⟩⟩, ⟨1, 1, 2, some ⟨.done, []⟩⟩]).2 =
      [⟨1, 1, 2, some ⟨.done, []⟩⟩] := by decide

theorem witness_ResetReachesEveryBlock : running.array.operation = none ∧ running.array.suspended = none ∧
    (after (.reset true false) running).seq.eStopOpen = true := by decide +kernel

theorem witness_ResetReachesEveryBlock_restart : idle.Room ∧ idle.lane.mode = .setup ∧ ready.Room ∧
    ready.lane.mode = .run := ⟨idle_room, rfl, ready_room, rfl⟩

/-- The recorder in a state. -/
def recording (p : Part) (st : RecorderState) : Part := { p with recorder := { p.recorder with state := st } }

theorem witness_SettingsResult : ready.Room ∧ ready.lane.mode = .run ∧ idle.Room ∧ idle.lane.mode ≠ .run ∧
    code (.gatewaySet 1 249 3) idle = some .range ∧ code (.gatewaySet 1 250 1) idle = some .done ∧
    code (.gatewaySet 1 4000 8) idle = some .done ∧ code (.gatewaySet 1 4000 9) idle = some .range ∧
    255 < 256 ∧ 1 % 2 = 1 ∧ (recording ready .armed).recorder.state = .armed ∧
    (recording ready .armed).Room ∧ code (.syncSet 1 255 1 7) (recording ready .armed) = some .busy :=
  ⟨ready_room, rfl, idle_room, by decide, by decide +kernel, by decide +kernel, by decide +kernel,
    by decide +kernel, by decide, rfl, rfl, room_of rfl (by decide), by decide +kernel⟩

/-! ### The part mode, the axis table and the sources -/

theorem witness_ModeRunResult : idle.Room ∧ 1 < 2 ∧ Part.reset.array.scanComplete = false ∧
    0 = idle.lane.mode.code ∧ (running.lane.mode = .run ∧ running.seq.state ≠ .safeOff) ∧
    -- not ok: no axis present; ok: the swing inside its window
    (idle.lane.mode = .setup ∧ idle.array.scanComplete = true ∧
      ¬ ∃ a : Axis, idle.shaper.axes[Axis.slot a].present = true) ∧
    (rigged.lane.mode = .setup ∧ rigged.array.scanComplete = true ∧
      (∃ a : Axis, rigged.shaper.axes[Axis.slot a].present = true) ∧
      ∀ c : Slot, rigged.shaper.axes[c].present = true →
        rigged.shaper.axes[c].set = true ∧ rigged.gateway.feedback[c].stale = false ∧
        rigged.shaper.axes[c].pmin ≤ rigged.gateway.feedback[c].actual ∧
        rigged.gateway.feedback[c].actual ≤ rigged.shaper.axes[c].pmax) :=
  ⟨idle_room, by decide +kernel⟩

theorem witness_ModeSetupResult : ready.Room ∧ ready.lane.mode = .run ∧ ready.seq.state = .safeOff :=
  ⟨ready_room, rfl, rfl⟩

theorem witness_AxisSetInSetup : idle.Room ∧ idle.lane.mode = .setup ∧ ready.lane.mode = .run ∧
    code (.axisSet 1 1 (.channel axisFields)) idle = some .done ∧
    code (.axisSet 1 1 (.channel { axisFields with kind := 0 })) idle = some .range ∧
    code (.axisSet 1 12 (.timing timingFields)) idle = some .done ∧
    code (.axisSet 1 12 (.timing { timingFields with stillDwell := 0 })) idle = some .range ∧
    code (.axisSet 1 12 (.timing timingFields)) ready = some .wrongMode ∧
    code (.axisSet 1 13 (.channel axisFields)) idle = some .range :=
  ⟨idle_room, rfl, rfl, by decide +kernel⟩

/-- The three outcomes stand in `test_window_tightening`. -/
theorem witness_AxisSetInRunOnlyTightens : running.Room ∧ running.lane.mode = .run ∧
    (AxisFields.toRecord axisFields 1).isSome = true :=
  ⟨running_room, rfl, by decide⟩

theorem witness_SourceLiveResult : idle.Room ∧ idle.lane.mode = .setup ∧ ready.Room ∧ ready.lane.mode = .run ∧
    4096 ≤ (0x1000#16).toNat ∧ (inState ready .holding).seq.state ≠ .running ∧
    code (.sourceLive 1 0x0002#16) (inState ready .holding) = some .wrongState ∧
    code (.sourceLive 1 0x0001#16) running = some .range ∧
    code (.sourceLive 1 0x0002#16) running = some .done :=
  ⟨idle_room, rfl, ready_room, rfl, by decide, by decide, by decide +kernel⟩

theorem witness_ReadsAnswerAndChangeNothing : idle.Room ∧ idle.array.scanComplete = true ∧
    Part.reset.Room ∧ Part.reset.array.scanComplete = false ∧ 12 < 13 ∧ 63 < 64 ∧
    (8 ≤ 11 ∧ 11 ≤ 11 ∧ 1 ≤ 1 ∧ 63 ≤ 63 ∧ 1 ≤ 32 ∧ 32 ≤ 32) ∧
    code (.lensTableRead 1 ⟨11, 1, 63, 32⟩) idle = some .done ∧
    code (.lensTableRead 1 ⟨12, 1, 63, 32⟩) idle = some .range ∧
    code (.lensTableRead 1 ⟨8, 0, 0, 0⟩) idle = some .range :=
  ⟨idle_room, rfl, room_of rfl (by decide), rfl, by decide, by decide, by decide, by decide +kernel⟩

/-! ### Geometry and zones -/

theorem witness_GeometryAndZoneClear : ready.Room ∧ ready.lane.mode = .run ∧ idle.Room ∧
    idle.lane.mode = .setup ∧
    code (.geometrySet 1 { geometry with x0 := 268435456 }) idle = some .range ∧
    code (.geometrySet 1 { geometry with x0 := 268435455 }) idle = some .done ∧
    code (.zoneClear 1 15) idle = some .done ∧ code (.zoneClear 1 16) idle = some .range :=
  ⟨ready_room, rfl, idle_room, rfl, by decide +kernel⟩

theorem witness_ZoneSetInSetup : idle.Room ∧ idle.lane.mode = .setup ∧
    code (.zoneSet 1 { standFields with index := 16 }) idle = some .range ∧
    code (.zoneSet 1 { standFields with state := 0 }) idle = some .range ∧
    code (.zoneSet 1 { standFields with kind := 2, scale := 255 }) idle = some .range ∧
    code (.zoneSet 1 { standFields with kind := 2, scale := 256, response := 9 }) idle = some .done ∧
    code (.zoneSet 1 { standFields with state := 2, kind := 1, refresh := 1 }) idle = some .invalid ∧
    code (.zoneSet 1 standFields) idle = some .done :=
  ⟨idle_room, rfl, by decide +kernel⟩

/-- In Run with the stand in entry 3. -/
def guarded : Part := after (.zoneSet 1 standFields) ready

/-- The same after its replies have left. -/
def fenced : Part := { guarded with lane := ready.lane }

theorem witness_ZoneSetInRunOnlyTightens : fenced.Room ∧ fenced.lane.mode = .run ∧
    standFields.index = (3 : ZoneIx).val ∧
    ((ZoneFields.toEntry standFields).any fun z => !z.inconsistent) = true ∧
    code (.zoneSet 1 { standFields with margin := 9999 }) fenced = some .wrongMode ∧
    code (.zoneSet 1 { standFields with box := ⟨-1, 1330000, -1, 450000, 0, 375000⟩ }) fenced =
      some .unreachable ∧
    code (.zoneSet 1 { standFields with margin := 10001 }) fenced = some .done :=
  ⟨room_of rfl (by decide +kernel), rfl, rfl, by decide +kernel⟩

/-- In Run with a Live entry 5 (section 4.4). -/
def watched : Part := { ready with zone := { ready.zone with
  zones := ready.zone.zones.set 5 { ZoneEntry.reset with state := .live, refresh := 3, growth := 400 } } }

theorem witness_LiveZoneUpdateResult : watched.Room ∧ watched.lane.mode = .run ∧
    watched.zone.zones[(5 : ZoneIx)].state = .live ∧ watched.zone.zones[(4 : ZoneIx)].state ≠ .live ∧
    code (.liveZoneUpdate 1 5 ⟨1, 0, 0, 0, 0, 0⟩) watched = some .invalid ∧
    code (.liveZoneUpdate 1 5 ⟨0, 0, 0, 0, 0, 0⟩) watched = some .done :=
  ⟨room_of rfl (by decide), rfl, by decide +kernel⟩

theorem witness_LiveDataAges : (timed watched).gateway.timer = some 1250 ∧
    (timed watched).zone.zones[(5 : ZoneIx)].state = .live := by decide +kernel

/-! ### The stop sequencer -/

theorem witness_CauseFollowsTable : running.seq.state ≠ .safeOff ∧
    (running.post .eStop .hard 0).seq.state = .safeOff ∧
    (running.post .guard .ramp 0).seq.state = .ramping := by decide +kernel

theorem witness_StopRequestResult : running.Room ∧ 2 < 3 := ⟨running_room, by decide⟩

/-- The player in a state. -/
def playing (p : Part) (st : PlayerState) : Part := { p with player := { p.player with state := st } }

theorem witness_LeavingRunning : running.seq.state = .running ∧
    (playing running .approaching).player.state = .approaching ∧
    (recording running .recording).recorder.state = .recording ∧
    (recording running .armed).recorder.state = .armed := by decide

theorem witness_StopLines : running.seq.eStopOpen = false ∧ running.seq.guardOpen = false := by decide

theorem witness_RearmResult : idle.Room ∧ idle.lane.mode = .setup ∧ ready.Room ∧ ready.lane.mode = .run ∧
    1 < 2 ∧ running.seq.state ≠ .safeOff ∧ ready.seq.state = .safeOff ∧
    -- blocked by the Guard line; allowed; allowed with Recover where the tip is not clear
    (let p := { ready with seq := { ready.seq with guardOpen := true } }
     code (.rearm 1 0) p = some .blocked) ∧
    code (.rearm 1 0) ready = some .done ∧
    (let p := { fenced with zone := { fenced.zone with currentHits := 0x0008#16 } }
     code (.rearm 1 0) p = some .blocked ∧ code (.rearm 1 1) p = some .done ∧
       (after (.rearm 1 1) p).zone.recovery = true) :=
  ⟨idle_room, rfl, ready_room, rfl, by decide, by decide, rfl, by decide +kernel⟩

theorem witness_ContinueResult : idle.Room ∧ idle.lane.mode = .setup ∧
    running.seq.state ≠ .holding ∧ (inState ready .holding).Room ∧
    (inState ready .holding).seq.state = .holding ∧
    code (.continueStop 1) (inState ready .holding) = some .done ∧
    (let p := inState { ready with seq := { ready.seq with guardOpen := true } } .holding
     code (.continueStop 1) p = some .blocked) :=
  ⟨idle_room, rfl, by decide, room_of rfl (by decide), rfl, by decide +kernel⟩

/-- In Settling since cycle 100, one quiet comparison short of the dwell of 8. -/
def settling (category : InForce) : Part :=
  let p := inState ready .settling
  { p with seq := { p.seq with
    category := category, phaseStart := 100
    axes := p.seq.axes.set 1 ⟨7, some ⟨131072, 104⟩, false, false⟩ } }

/-- Cycle 104 lies within the mask of 4, cycle 105 past it. -/
theorem witness_StandstillReading : (settling .hold).seq.state = .settling ∧
    ¬ 4 < ((104 : CycleNo) - 100).toNat ∧ 4 < ((105 : CycleNo) - 100).toNat ∧
    ((settling .hold).sequencerReading 105).seq.state = .holding ∧
    ((settling .ramp).sequencerReading 105).seq.state = .braking ∧
    ((settling .hold).sequencerReading 106).seq.state = .settling := by decide +kernel

/-- A phase count. -/
def counted (p : Part) (n : Nat) : Part := { p with seq := { p.seq with phaseCount := n } }

theorem witness_SequencerTimers :
    ((counted (settling .hold) 3000).seq.state = .settling ∧
      (counted (settling .hold) 3000).shaper.timing.stillTimeout ≤ 3000 ∧
      (settling .hold).seq.axes[(1 : Axis)].stillRun < 8) ∧
    ((counted (inState ready .braking) 2000).shaper.timing.brakeTimeout ≤ 2000 ∧
      (counted (inState ready .braking) 2000).seq.axes[(1 : Axis)].confirmed = false) ∧
    (counted (inState ready .arming) 4000).shaper.timing.armingTimeout ≤ 4000 ∧
    (after .brakeTimer (counted (inState ready .braking) 250)).seq.state = .safeOff ∧
    (let p := inState ready .arming
     let q := { p with seq := { p.seq with readiness := true, releaseServed := 250 } }
     q.seq.state = .arming ∧ q.shaper.timing.brakeTimer ≤ q.seq.releaseServed ∧
       (after .releaseTimer q).seq.state = .holding) := by decide +kernel

theorem witness_EventsNotDueChangeNothing : ready.gateway.timer = none ∧ ready.seq.state ≠ .settling ∧
    ready.seq.state ≠ .braking ∧ ready.seq.state ≠ .arming ∧ ready.sync.state ≠ .locked ∧
    ready.sync.state ≠ .freewheel ∧ ready.sync.phasePoint = none ∧ ready.array.operation = none ∧
    ready.array.scan = none ∧ (after .eStopOpen ready).seq.eStopOpen = true ∧
    (after .guardOpen ready).seq.guardOpen = true ∧
    (let p := { ready with player := { ready.player with autoInterval := 1 } }
     p.player.autoCount < p.player.autoInterval) := by decide +kernel

/-! ### What every step keeps -/

theorem witness_StopLawsKept : running.ChainLaw ∧ running.RecoveryLaw ∧ running.PlayLaw ∧
    step (at' running) = .next (at' running) :=
  ⟨running_chain, (fun h => by cases h), fun h => absurd rfl h, rfl⟩

theorem witness_QueueLawKept : (withReplies 2 ready).QueueLaw ∧
    step (at' (withReplies 2 ready)) = .next (at' (withReplies 2 ready)) :=
  ⟨⟨by decide, by decide, by decide, by decide⟩, rfl⟩

/-- Bytes in the array: an erase marker and a lock byte. -/
def stored (p : Part) : Part := { p with array := { p.array with
  memory := ⟨[(0, 0xA5#8), (65, 0x00#8)]⟩ } }

theorem witness_MemoryStaysCanonical : (stored ready).array.memory.wf = true ∧
    step (at' (stored ready)) = .next (at' (stored ready)) ∧
    (⟨[(65, 0x00#8), (65, 0x01#8)]⟩ : ArrayMemory).wf = false ∧
    (⟨[(65, 0xFF#8)]⟩ : ArrayMemory).wf = false := ⟨by decide, rfl, by decide, by decide⟩

theorem witness_RangesKept : running.CountersInRange ∧ running.ScaleInRange ∧
    step (at' running) = .next (at' running) :=
  ⟨⟨by decide, by decide, by decide, by decide, by decide, by decide, by decide, by decide⟩,
    ⟨by decide, by decide, by decide⟩, rfl⟩

/-! ### The envelope shaper -/

theorem witness_BrakingSpeedIsLargest : 1 ≤ 1 ∧ 0 < 1 ∧ brakingSpeed 0 1 = 0 ∧
    (10 < 11 ∧ brakingSpeed 10 11 = 10) ∧ (11 ≤ 11 ∧ stoppingDistance 11 11 = 0) := by decide +kernel

/-- Section 5.6: the ramp of the swing takes 498 steps. -/
theorem witness_RampEndsAtStoppingExtent : 1 ≤ 11453 ∧ (5701632 : Int).natAbs / 11453 < 498 ∧
    stoppingExtent 8589934592 5701632 11453 = 10006302587 := by decide

theorem witness_WindowHolds : 1 ≤ 11453 ∧ (-300000 : Int) * 65536 ≤ 300000 * 65536 ∧
    (running.shaper.chans[(1 : Slot)]).InWindow (-300000 * 65536, 300000 * 65536) 11453 :=
  ⟨by decide, by decide, by decide, by decide, by decide, by decide⟩

/-! ### Lens channels -/

/-- In Run with the focus channel present, its table committed, its drive at 4,765. -/
def focused : Part :=
  let ax : AxisRecord := { AxisRecord.reset 8 with
    present := true, set := true, pmin := -3000, pmax := 9000, vmax := 655360, amax := 65536, astop := 65536 }
  let lc : LensChannel := { LensChannel.reset with
    active := [⟨500, -3000⟩, ⟨2000, 1500⟩, ⟨8000, 7500⟩, ⟨16000, 9000⟩] }
  { ready with
    shaper := { ready.shaper with axes := ready.shaper.axes.set 8 ax }
    gateway := { ready.gateway with feedback := ready.gateway.feedback.set 8 (feedbackAt 4765) }
    lens := { ready.lens with chans := ready.lens.chans.set 0 lc } }

/-- The focus channel in Direct, on Live where its drive stands, its replies gone. -/
def direct : Part := { after (.lensModeSet 1 8 1) focused with lane := ready.lane }

/-- A position of the focus channel. -/
def focusAt (p : Int) (q : Part) : Part := { q with
  shaper := { q.shaper with chans := q.shaper.chans.set 8 { q.shaper.chans[(8 : Slot)] with p := p } } }

theorem witness_LensModeSetResult : focused.Room ∧ direct.Room ∧
    code (.lensModeSet 1 7 0) focused = some .range ∧ code (.lensModeSet 1 9 3) focused = some .range ∧
    code (.lensModeSet 1 8 0) focused = some .done ∧ code (.lensModeSet 1 9 2) focused = some .invalid ∧
    code (.lensModeSet 1 8 1) (running) = some .done ∧
    (let c : Channel := { direct.shaper.chans[(8 : Slot)] with v := 1 }
     let p := { direct with shaper := { direct.shaper with chans := direct.shaper.chans.set 8 c } }
     code (.lensModeSet 1 8 0) p = some .wrongState) ∧
    (let p := { focused with gateway := ready.gateway }
     code (.lensModeSet 1 8 1) p = some .blocked) ∧
    (let p := { focused with gateway := { ready.gateway with
        feedback := ready.gateway.feedback.set 8 (feedbackAt 9001) } }
     code (.lensModeSet 1 8 1) p = some .unreachable) ∧
    code (.lensModeSet 1 8 2) (focusAt 589824001 direct) = some .unreachable ∧
    code (.lensModeSet 1 8 2) (focusAt 589824000 direct) = some .done ∧
    code (.lensModeSet 1 8 0) direct = some .done ∧
    (after (.lensModeSet 1 8 2) direct).lens.chans[(0 : LensIx)].lastDemand = 5265 :=
  ⟨room_of rfl (by decide +kernel), room_of rfl (by decide +kernel), by decide +kernel⟩

theorem witness_LensPointsResult : idle.Room ∧
    code (.lensPoints 1 ⟨12, 0, [⟨1, 1⟩], 0⟩) idle = some .range ∧
    code (.lensPoints 1 ⟨8, 64, [⟨1, 1⟩], 0⟩) idle = some .range ∧
    code (.lensPoints 1 ⟨8, 63, [⟨1, 1⟩], 7⟩) idle = some .invalid ∧
    code (.lensPoints 1 ⟨8, 63, [], 0⟩) idle = some .range ∧
    code (.lensPoints 1 ⟨8, 63, [⟨16777216, 0⟩], 0⟩) idle = some .range ∧
    code (.lensPoints 1 ⟨8, 63, List.replicate 59 ⟨16777215, -8388607⟩, 0⟩) idle = some .done :=
  ⟨idle_room, by decide +kernel⟩

/-- Two points staged for the focus channel, out to its axis window. -/
def staged (p : Part) : Part :=
  { after (.lensPoints 1 ⟨8, 0, [⟨500, -3000⟩, ⟨16000, 9000⟩], 0⟩) p with lane := ready.lane }

theorem witness_LensCommitResult : (staged focused).Room ∧ (staged direct).Room ∧
    code (.lensCommit 1 7 2) (staged focused) = some .range ∧
    code (.lensCommit 1 8 1) (staged focused) = some .range ∧
    code (.lensCommit 1 8 65) (staged focused) = some .range ∧
    code (.lensCommit 1 8 3) (staged focused) = some .invalid ∧
    code (.lensCommit 1 8 2) (staged focused) = some .done ∧
    (let p := { after (.lensModeSet 1 8 2) direct with lane := ready.lane }
     code (.lensCommit 1 8 2) (focusAt 589824001 (staged p)) = some .unreachable ∧
       code (.lensCommit 1 8 2) (focusAt 589824000 (staged p)) = some .done) :=
  ⟨room_of rfl (by decide +kernel), room_of rfl (by decide +kernel), by decide +kernel⟩

theorem witness_TargetUpdateResult : idle.Room ∧ code (.targetUpdate 1 target) idle = some .done ∧
    code (.targetUpdate 1 { target with refresh := 0 }) idle = some .range ∧
    code (.targetUpdate 1 { target with offset := -16777216 }) idle = some .range :=
  ⟨idle_room, by decide +kernel⟩

theorem witness_MapsStayInRange :
    (let t : List LensPair := [⟨140, 6000⟩, ⟨200, 4000⟩, ⟨280, 1000⟩]
     2 ≤ t.length ∧ t.Pairwise (fun a b => a.phys < b.phys) ∧ t.Pairwise (fun a b => b.count < a.count)) ∧
    (let t : List LensPair := [⟨1000, 2000⟩, ⟨2000, 9000⟩]
     t.Pairwise (fun a b => a.phys < b.phys) ∧ t.Pairwise (fun a b => a.count < b.count)) := by decide

/-- A count table from 1,000 to 6,000 beside axis windows that hold part of it, that lie below it and that
lie above it; and the ends of a segment. -/
theorem witness_MapsStayInRange_windows :
    (let t : List LensPair := [⟨140, 6000⟩, ⟨200, 4000⟩, ⟨280, 1000⟩]
     let w (lo hi : Int) : Int × Int := lensWindow { AxisRecord.reset 8 with pmin := lo, pmax := hi } .map t
     (∀ p ∈ t, 1000 ≤ p.count ∧ p.count ≤ 6000) ∧ t = [⟨140, 6000⟩] ++ ⟨200, 4000⟩ :: ⟨280, 1000⟩ :: [] ∧
     [w 2000 9000, w 6000 9000, w 6001 9000, w (-5) 999, w (-5) 1000] =
       [(2000, 6000), (6000, 6000), (6001, 6001), (999, 999), (1000, 1000)] ∧
     [forwardMap t 200, forwardMap t 201, forwardMap t 279] = [4000, 3962, 1037] ∧
     [reverseMap t 4000, reverseMap t 3962, reverseMap t 1001] = [200, 201, 280]) := by decide +kernel

/-! ### Camera sync -/

/-- A sync unit with its last accepted edge at 100,000 and an interval of 40,000. -/
def synced (st : SyncState) (run : Nat) : Part := { idle with sync := { idle.sync with
  state := st, reference := some 100000, zn := 40000, zavg := 40000, agreement := run } }

theorem witness_SyncEdges : idle.sync.reference = none ∧
    (synced .lost 0).sync.state = .lost ∧
    -- Acquiring: out of range below and above; in range, the first step and the third
    ((synced .acquiring 0).sync.state = .acquiring ∧ ¬ (4000 ≤ 103999 - 100000) ∧ ¬ (50001 ≤ 50000)) ∧
    (4000 ≤ 104000 - 100000 ∧ ¬ ((4000 : Int) - 40000).natAbs ≤ 40000 / 64) ∧
    (after (.syncEdge 104000) (synced .acquiring 2)).sync.agreement = 1 ∧
    (after (.syncEdge 140625) (synced .acquiring 2)).sync.state = .locked ∧
    (after (.syncEdge 140626) (synced .acquiring 2)).sync.state = .acquiring ∧
    -- Locked and Freewheel: below the mask, at it and past the range
    (109999 - 100000 < 40000 / 4 ∧ ¬ 110000 - 100000 < 40000 / 4) ∧
    (after (.syncEdge 110000) (synced .locked 3)).sync.state = .locked ∧
    (after (.syncEdge 150001) (synced .locked 3)).sync.state = .acquiring ∧
    (after (.syncEdge 109999) (synced .freewheel 3)).sync.state = .freewheel ∧
    (after (.syncEdge 110000) (synced .freewheel 3)).sync.state = .acquiring := by decide +kernel

theorem witness_SyncTimers :
    (let p := { synced .locked 3 with sync := { (synced .locked 3).sync with lossTime := some 160000 } }
     p.sync.state = .locked ∧ p.sync.lossTime = some 160000 ∧ p.sync.reference = some 100000 ∧
       (after .lossTime p).sync.reference = some 140000) ∧
    (let p := { synced .freewheel 3 with sync := { (synced .freewheel 3).sync with
        nextSynth := some 180000, freewheel := 7 } }
     p.sync.nextSynth = some 180000 ∧ p.sync.freewheel = 7 ∧ (after .edgeSynthesis p).sync.state = .lost) ∧
    (let p := { synced .freewheel 3 with sync := { (synced .freewheel 3).sync with
        nextSynth := some 180000, freewheel := 6 } }
     p.sync.freewheel ≠ 7 ∧ (after .edgeSynthesis p).sync.freewheel = 7) ∧
    (let p := { synced .locked 3 with sync := { (synced .locked 3).sync with phasePoint := some 120000 } }
     p.sync.phasePoint = some 120000 ∧ (after .phasePointExpiry p).sync.frameCount = 1) := by
  decide +kernel

/-! ### The take array -/

/-- A finished take of the swing, two pages in bay b. -/
def take (b : Bay) (st : SlotState) : DirectorySlot := { DirectorySlot.reset with
  state := st, bays := [b], dataPages := 2, nextPage := 2, samples := 100, endReason := .requested
  info := { TakeInfo.reset with serial := 4, mask := 0x002#12 } }

/-- A directory: 0 Closed, 1 Closed and locked, 2 its lock pending, 3 named by a part-owned cue, 4
Recording, 5 Importing with a page on its way, 6 Importing with its End accepted, 7 Retiring; the
rest Empty. An erase is in progress, so that nothing here completes at once. -/
def shelf (p : Part) : Part :=
  let d := p.array.directory
  let d1 := (d.set 0 (take 10 .closed)).set 1 { take 11 .closed with locked := true }
  let d2 := (d1.set 2 { take 12 .truncated with lockPending := true }).set 3 (take 13 .closed)
  let d3 := (d2.set 4 { take 14 .recording with dataPages := 1 }).set 5
    { take 15 .importing with nextPage := 3 }
  let d4 := (d3.set 6 { take 16 .importing with endAccepted := true }).set 7 (take 17 .retiring)
  let cue : Cue := { Cue.reset with owner := .part, slot := 3, mask := 0x002#12, status := .pending }
  { p with
    array := { p.array with directory := d4, erased := [20, 21], operation := some (.erase 30) }
    recorder := { p.recorder with bufferA := ⟨.filling, some 1, []⟩, bufferB := ⟨.free, some 0, []⟩ }
    player := { p.player with cues := p.player.cues.set 2 cue } }

theorem shelf_room : (shelf ready).Room := room_of rfl (by decide +kernel)

theorem witness_TakeRequests : (shelf ready).Room ∧ Part.reset.Room ∧
    Part.reset.array.scanComplete = false ∧
    ([code (.takeErase 1 64) (shelf ready), code (.takeErase 1 0) Part.reset, code (.takeErase 1 8) (shelf ready),
      code (.takeErase 1 1) (shelf ready), code (.takeErase 1 2) (shelf ready),
      code (.takeErase 1 3) (shelf ready), code (.takeErase 1 0) (shelf ready)] =
      [some .range, some .busy, some .wrongState, some .locked, some .busy, some .busy, some .started]) ∧
    ([code (.takeLock 1 0) { shelf ready with array := { (shelf ready).array with freeze := true } },
      code (.takeLock 1 4) (shelf ready), code (.takeLock 1 2) (shelf ready), code (.takeLock 1 1) (shelf ready),
      code (.takeLock 1 0) (shelf ready)] =
      [some .frozen, some .wrongState, some .busy, some .done, none]) ∧
    ([code (.takeRead 1 0 130560) (shelf ready), code (.takeRead 1 0 130559) Part.reset,
      code (.takeRead 1 7 0) (shelf ready), code (.takeRead 1 4 0) (shelf ready),
      code (.takeRead 1 5 2) (shelf ready), code (.takeRead 1 5 3) (shelf ready),
      code (.takeRead 1 0 2) (shelf ready), code (.takeRead 1 0 1) (shelf ready)] =
      [some .range, some .busy, some .wrongState, some .notYet, some .notYet, some .range, some .range, none]) ∧
    1 / 255 < (shelf ready).array.directory[(0 : DirIx)].bays.length :=
  ⟨shelf_room, room_of rfl (by decide), rfl, by decide +kernel⟩

/-- The same shelf in Setup with nothing Recording or Retiring. -/
def stored2 : Part :=
  let p := shelf idle
  { p with array := { p.array with
      directory := (p.array.directory.set 4 DirectorySlot.reset).set 7 DirectorySlot.reset } }

theorem witness_ArrayClearResult : ready.Room ∧ ready.lane.mode = .run ∧ stored2.Room ∧
    stored2.lane.mode = .setup ∧ stored2.array.scanComplete = true ∧
    [code (.arrayClear 1) Part.reset, code (.arrayClear 1) (shelf idle), code (.arrayClear 1) stored2,
      code (.arrayClear 1) { stored2 with array := { stored2.array with freeze := true } }] =
      [some .busy, some .busy, some .started, some .frozen] ∧
    (∀ i : DirIx, stored2.array.directory[i].state = .closed ∨ stored2.array.directory[i].state = .truncated →
      stored2.array.directory[i].bays ≠ []) ∧
    -- the first retire, of the lowest slot; and a clear that ends at acceptance
    (let t := after (.arrayClear 1) stored2
     t.array.directory[(0 : DirIx)].bays = [10] ∧ t.array.operation = some (.job (.clearRetire 0 10) false) ∧
       (after (.arrayClear 1) idle).array.clearing = false) :=
  ⟨ready_room, rfl, room_of rfl (by decide +kernel), rfl, rfl, by decide +kernel, by decide +kernel,
    by decide +kernel⟩

/-- An entry page: one Sample of the swing, then unused bytes. -/
def samplePage : List Byte := padEntries [0x01, 0, 0, 0, 0xE8, 0x03, 0, 0]

/-- An importing slot 8 that needs its first bay. -/
def importing : Part :=
  let p := shelf ready
  { p with array := { p.array with directory := p.array.directory.set 8 { DirectorySlot.reset with
      state := .importing, info := { TakeInfo.reset with mask := 0x002#12 } } } }

theorem witness_ImportRequests : importing.Room ∧
    [code (.takeImport 1 { importFields with modes := #v[0, 3, 0, 0] }) importing,
      code (.takeImport 1 importFields) Part.reset, code (.takeImport 1 importFields) importing,
      code (.takeImport 1 { importFields with slot := 9 }) importing,
      code (.takeImport 1 { importFields with slot := 9 })
        { importing with array := { importing.array with serial := 0xFFFFFFFF#32 } }] =
      [some .range, some .busy, some .wrongState, some .done, some .noSpace] ∧
    [code (.pageWrite 1 64 samplePage) importing, code (.pageWrite 1 8 (samplePage ++ [0])) importing,
      code (.pageWrite 1 8 samplePage) Part.reset, code (.pageWrite 1 0 samplePage) importing,
      code (.pageWrite 1 8 (padEntries [0x02, 0, 1, 0])) importing,
      code (.pageWrite 1 8 samplePage) { importing with array := { importing.array with erased := [] } },
      code (.pageWrite 1 8 samplePage) importing, code (.pageWrite 1 5 samplePage) importing] =
      [some .range, some .invalid, some .busy, some .wrongState, some .invalid, some .noSpace, none, none] ∧
    -- no entry, an unknown kind, an entry past the end, a Hold of 0, an entry after End, an End before
    [code (.pageWrite 1 8 (padEntries [])) importing, code (.pageWrite 1 8 (padEntries [0x07, 0, 0, 0])) importing,
      code (.pageWrite 1 8 ((List.replicate 31 [0x01, 0, 0, 0, 0, 0, 0, 0]).flatten ++ [0x03, 0, 0, 0, 0, 0])) importing,
      code (.pageWrite 1 8 (padEntries [0x01, 0, 0, 0, 1, 0, 0, 0, 0x02, 0, 0, 0])) importing,
      code (.pageWrite 1 8 (padEntries [0x05, 0, 0, 0, 0x05, 0, 0, 0])) importing,
      code (.pageWrite 1 6 samplePage) importing] = List.replicate 6 (some .invalid) ∧
    ([] : List Bay).length = (0 + 254) / 255 ∧ [(15 : Bay)].length = (3 + 254) / 255 ∧
    [code (.importClose 1 64) importing, code (.importClose 1 6) Part.reset, code (.importClose 1 0) importing,
      code (.importClose 1 5) importing, code (.importClose 1 8) importing, code (.importClose 1 6) importing] =
      [some .range, some .busy, some .wrongState, some .busy, some .invalid, some .done] :=
  ⟨room_of rfl (by decide +kernel), by decide +kernel⟩

/-- An operation in progress. -/
def busyWith (p : Part) (o : Operation) : Part := { p with array := { p.array with operation := some o } }

/-- The scan stands at a header page. -/
def scanning (n : Nat) : Part := { Part.reset with
  array := { Part.reset.array with scan := some { Scan.begin with phase := .headers n } } }

theorem witness_ArrayCompletions :
    (busyWith (shelf ready) (.job (.takeRead 0 0 1) false)).array.operation =
      some (.job (.takeRead 0 0 1) false) ∧
    ((shelf ready).array.directory[(5 : DirIx)].dataAddress 2).isSome = true ∧
    (after .pageProgramComplete (busyWith (shelf ready) (.job (.lock 0 0 10) false))).array.directory[
      (0 : DirIx)].locked = true ∧
    (after .pageProgramComplete (busyWith (shelf ready) (.job (.retire 7 17) false))).array.directory[
      (7 : DirIx)].state = .empty ∧
    ((shelf ready).array.memory.wf = true ∧ (shelf ready).recorder.state ≠ .stalled ∧
      (after .bayEraseComplete (shelf ready)).array.erased = [20, 21, 30]) ∧
    (let h : TakeHeader := ⟨5, 0, TakeInfo.reset⟩
     (after .pageProgramComplete (busyWith (shelf ready) (.job (.writeHeader 15 h) false))).array.operation =
       none) ∧
    -- a recorder Stalled for a buffer, not for a bay
    (let p := recording (shelf ready) .stalled
     p.recorder.filling = some .a ∧ (p.recorder.buffer .a).page = some 1 ∧
       (after .bayEraseComplete p).array.erased = [20, 21, 30]) ∧
    -- the last header page of an array without takes ends the scan
    ((after .scanReadComplete (scanning 511)).array.operation = some (.erase 0) ∧
      (after .scanReadComplete (scanning 511)).array.dirty.head? = some 1) ∧
    ((scanning 510).array.scan = some { Scan.begin with phase := .headers 510 } ∧ 510 < 511) ∧
    (let e : ReplyEntry := ⟨0, 1, 0x67#8, none⟩
     e.ticket = 0 ∧ e.answer = none) := by decide +kernel

/-! ### The recorder -/

theorem witness_RecorderRequests : (shelf running).Room ∧
    [code (.recordStart 1 { recordFields with slot := 8 }) Part.reset,
      code (.recordStart 1 { recordFields with slot := 8 }) (shelf idle),
      code (.recordStart 1 { recordFields with slot := 64 }) (shelf running),
      code (.recordStart 1 { recordFields with slot := 8, mask := 0x0001#16 }) (shelf running),
      code (.recordStart 1 { recordFields with slot := 8, mask := 0x0100#16 }) (shelf (inState focused .running)),
      code (.recordStart 1 { recordFields with slot := 8 }) (shelf ready),
      code (.recordStart 1 { recordFields with slot := 8 }) (recording (shelf running) .closing),
      code (.recordStart 1 { recordFields with slot := 0 }) (shelf running),
      code (.recordStart 1 { recordFields with slot := 8 })
        { shelf running with array := { (shelf running).array with erased := [] } },
      code (.recordStart 1 { recordFields with slot := 8 }) (shelf running)] =
      [some .busy, some .wrongMode, some .range, some .range, some .invalid, some .wrongState, some .busy,
       some .wrongState, some .noSpace, some .done] ∧
    [code (.recordStop 1) running, code (.recordStop 1) (recording running .closing),
      code (.recordStop 1) (recording running .stalled)] = [some .wrongState, some .done, some .done] ∧
    (let p := { recording (shelf running) .armed with recorder :=
        { (recording (shelf running) .armed).recorder with slot := some 4 } }
     p.recorder.state = .armed ∧ p.recorder.slot = some 4 ∧
       (after (.recordStop 1) p).array.erased = [20, 21, 14]) :=
  ⟨room_of rfl (by decide +kernel), by decide +kernel⟩

/-! ### The player and the cue ring -/

theorem witness_CueWriteResult : (shelf ready).Room ∧
    [code (.cueWrite 1 { cueFields with index := 16 }) (shelf ready),
      code (.cueWrite 1 { cueFields with index := 2 }) (shelf ready),
      code (.cueWrite 1 { cueFields with endIx := 9 }) (shelf ready),
      code (.cueWrite 1 { cueFields with endIx := 10 }) (shelf ready)] =
      [some .range, some .owned, some .range, some .done] ∧
    ((after (.cueWrite 1 { cueFields with speed := 0 }) (shelf ready)).player.cues[(5 : CueIx)]).speed = 256 :=
  ⟨shelf_room, by decide +kernel⟩

/-- The player at the part-owned cue of the shelf. -/
def atCue (st : PlayerState) : Part :=
  let p := shelf running
  { p with player := { p.player with state := st, pointer := 2, autoInterval := 1, autoCount := 1 } }

theorem witness_PlayerPolls : (atCue .suspended).Room ∧
    [code (.playerStart 1 0) idle, code (.playerStart 1 0) ready, code (.playerStart 1 0) running] =
      [some .wrongMode, some .wrongState, some .done] ∧
    ((atCue .suspended).seq.state = .running ∧ (atCue .suspended).zone.recovery = false ∧
      (atCue .suspended).player.autoInterval ≤ (atCue .suspended).player.autoCount) ∧
    (let d := (atCue .suspended).array.directory[(3 : DirIx)]
     d.state = .closed ∧ d.bays ≠ [] ∧ d.dataPages ≠ 0 ∧ 0 < d.samples + d.gaps ∧
       0x002#12 &&& d.info.mask ≠ 0 ∧
       (atCue .suspended).modesOk (0x002#12 &&& d.info.mask) d.info = true ∧
       (atCue .suspended).array.playerJobs = []) ∧
    ((atCue .suspended).playerServing.player.state = .fetching ∧
      let p := atCue .suspended
      ({ p with player := { p.player with autoInterval := 3 } } : Part).playerServing.player.autoCount = 2) ∧
    (after (.cuePoll 1) (atCue .suspended)).player.state = .fetching ∧
    (after .autoPoll (atCue .suspended)).player.state = .fetching ∧
    (after (.playerStart 1 0) (atCue .stopped)).player.state = .fetching ∧
    (after (.playerStart 1 0) running).player.state = .suspended :=
  ⟨room_of rfl (by decide +kernel), by decide +kernel⟩

/-- The player at the cue with a Go trigger, its prefetch complete. -/
def atGo (st : PlayerState) (pages : List PrefetchPage) : Part :=
  let p := atCue st
  { p with player := { p.player with
      cues := p.player.cues.set 2 { p.player.cues[(2 : CueIx)] with trigger := .go }
      played := 0x002#12, prefetch := pages } }

theorem witness_PlayerRequests : (atGo .waiting []).Room ∧
    [code (.go 1) running, code (.go 1) (atGo .waiting []), code (.go 1) (atGo .waiting [⟨1, true, []⟩])] =
      [some .wrongState, some .done, some .done] ∧
    ((after (.go 1) (atGo .waiting [])).player.state = .waiting ∧
      (after (.go 1) (atGo .waiting [⟨1, true, []⟩])).player.state = .playing) ∧
    [code (.resume 1) idle, code (.resume 1) running, code (.resume 1) (atGo .halted [])] =
      [some .wrongMode, some .wrongState, some .done] ∧
    (let p := atGo .halted []
     code (.resume 1) { p with player := { p.player with
       held := p.player.held.set 1 (some (300001 * 65536)) } } = some .blocked) ∧
    [code (.abandon 1) running, code (.abandon 1) (atGo .halted [])] = [some .wrongState, some .done] ∧
    [code (.playerStop 1) running, code (.playerStop 1) (atGo .suspended []),
      code (.playerStop 1) (atGo .playing [])] = [some .done, some .done, some .done] ∧
    (after (.playerStop 1) (atGo .playing [])).player.pointer = 3 :=
  ⟨room_of rfl (by decide +kernel), by decide +kernel⟩

/-! ### Further clauses: inputs that meet the hypotheses of the clauses about the blocks' own work -/

/-- A lane with a Go, a Restart and a Go after it, in Setup: the second record resets the part. -/
theorem witness_LaneRecordsRunInOrder_restart :
    (CycleFrame.ofBytes (cycleBytes 46 [0x75, 0x03, 0x04, 0x00, 0x03, 0x04, 0x04, 0x00, 0x75, 0x05, 0x04,
        0x00])).any (fun f =>
      let before := (idle.serveFrame f).serveRecord (.go 3)
      idle.gateway.accepts f.cycle &&
      decide ((laneRecords f.lane).map (·.command) = [.go 3, .restart 4, .go 5]) &&
      decide (before.lane.mode = .setup) && decide (before.lane.queue.length < 32)) = true := by
  decide +kernel

theorem running_play : running.PlayLaw := fun h => absurd rfl h

/-- A drive frame outstanding at the serving, a driven channel off Track and one on Track in Safe-Off. -/
theorem witness_ServedCycle_slots : (awaiting (timed running)).gateway.outstanding.isSome = true ∧
    (after .fillCycle (awaiting (timed running))).gateway.driveMiss = 1 ∧ running.PlayLaw ∧
    running.Driven 1 ∧ running.shaper.chans[(1 : Slot)].source ≠ .track ∧
    (after .fillCycle (timed running)).shaper.chans[(1 : Slot)].source ≠ .track ∧
    ready.PlayLaw ∧ ready.Driven 1 ∧ ready.seq.state = .safeOff ∧
    ready.shaper.chans[(1 : Slot)].source = .track ∧ ¬ ready.Driven 2 :=
  ⟨rfl, by decide +kernel, running_play, ⟨rfl, by decide, by decide⟩, by decide, by decide +kernel,
    fun _ => by decide, ⟨rfl, by decide, by decide⟩, rfl, by decide, fun h => absurd h.2.1 (by decide)⟩

/-- An erase in progress: its bay is cut, the next bay is not. -/
theorem witness_ResetReachesEveryBlock_cut : (shelf ready).array.operation = some (.erase 30) ∧
    (shelf ready).array.memory.wf = true ∧ (shelf ready).array.Cut (30 * 65536) ∧
    ¬ (shelf ready).array.Cut (31 * 65536) := by
  refine ⟨rfl, rfl, .inl ⟨30, .inl rfl, by decide, by decide⟩, ?_⟩
  rintro (⟨bay, h | h, h1, h2⟩ | ⟨j, w, h, -⟩)
  · injection h with h; injection h with h; subst h; exact absurd h2 (by decide)
  · cases h
  · cases h

theorem witness_AxisSetInSetup_run : ready.Room ∧ ready.lane.mode = .run ∧
    code (.axisSet 1 1 (.channel { axisFields with present := 2 })) ready = some .range ∧
    code (.axisSet 1 12 (.timing { timingFields with stillDwell := 256 })) ready = some .range :=
  ⟨ready_room, rfl, by decide +kernel⟩

theorem witness_ZoneSetInSetup_run : ready.Room ∧ ready.lane.mode = .run ∧
    code (.zoneSet 1 { standFields with margin := 1048577 }) ready = some .range ∧
    code (.zoneSet 1 { standFields with state := 2, kind := 1, refresh := 1 }) ready = some .invalid :=
  ⟨ready_room, rfl, by decide +kernel⟩

/-- In Running with the tip in a KeepOut entry, Ramp. -/
def struck : Part := { running with zone := { running.zone with
  zones := running.zone.zones.set 2 { ZoneEntry.reset with
    state := .static, response := .ramp
    effective := ⟨-1000000, 1000000, -1000000, 1000000, -1000000, 1000000⟩ } } }

theorem witness_LiveDataAges_tested :
    (struck.lane.mode = .run ∧ struck.seq.state ≠ .safeOff ∧ struck.zone.recovery = false) ∧
    (struck.zoneWork.seq.causes.getLsbD 2 = true ∧ struck.zoneWork.seq.state = .ramping) ∧
    (let p := { struck with zone := { struck.zone with recovery := true } }
     p.zoneWork.zone.recovery = true ∧ p.zoneWork.seq = p.seq) ∧
    (let p := { running with zone := { running.zone with recovery := true } }
     p.zoneWork.zone.recovery = false) := by decide +kernel

/-- Braking and Arming from cycle 100, the swing's slot answered with its brake engaged or not. -/
def readingIn (st : StopState) (engaged : Bool) (released : Bool) : Part :=
  let p := inState ready st
  { p with
    seq := { p.seq with phaseStart := 100, readiness := released,
                        releaseStart := if released then some 100 else none }
    gateway := { p.gateway with feedback := p.gateway.feedback.set 1 (
      ⟨131072, ⟨true, false, true, true, engaged⟩, false⟩ : Feedback) } }

/-- Cycle 110 lies within the mask of 10, cycle 111 past it. -/
theorem witness_StandstillReading_brakes :
    ((readingIn .braking true false).sequencerReading 110).seq.state = .braking ∧
    ((readingIn .braking true false).sequencerReading 111).seq.state = .safeOff ∧
    ((readingIn .braking false false).sequencerReading 111).seq.state = .braking ∧
    ((readingIn .arming true false).sequencerReading 100).seq.readiness = false ∧
    ((readingIn .arming true false).sequencerReading 101).seq.readiness = true ∧
    ((readingIn .arming false true).sequencerReading 110).seq.state = .arming ∧
    ((readingIn .arming false true).sequencerReading 111).seq.state = .holding ∧
    ((readingIn .arming true true).sequencerReading 111).seq.state = .arming := by decide +kernel

theorem running_window : running.WindowLaw where
  sane := by decide +kernel
  setup := by intro h; cases h
  motion := by decide +kernel
  lens := by decide +kernel
  inside := by unfold Channel.InWindow; decide +kernel
  ramp := by decide +kernel

theorem witness_WindowHolds_step : running.ChainLaw ∧ running.PlayLaw ∧ running.WindowLaw ∧
    step ⟨running, [.stop 1 1]⟩ = .next (⟨after (.stop 1 1) running, []⟩) :=
  ⟨running_chain, running_play, running_window, rfl⟩

/-- In Running, a drive frame outstanding from which the swing's slot stands off by more than its limit. -/
def strayed (limit : Nat) : Part := { awaiting running with
  shaper := { running.shaper with axes := running.shaper.axes.set 1 { swing with following := limit } }
  gateway := { (awaiting running).gateway with
    outstanding := some ⟨46, Vector.replicate 12 100, Vector.replicate 12 true⟩ } }

/-- Every slot answered at a count of 0: a limit of 99 is exceeded, one of 100 is not. -/
theorem witness_DriveFaultStops_following :
    (let o : Outstanding := ⟨46, Vector.replicate 12 100, Vector.replicate 12 true⟩
     let d : DriveReturn := ⟨46, Vector.replicate 12 ⟨⟨true, false, true, true, false⟩, 0⟩⟩
     (strayed 99).gateway.outstanding = some o ∧
       ((strayed 99).takeDriveFrame o d).seq.state = .ramping ∧
       ((strayed 99).takeDriveFrame o d).shaper.chans[(1 : Slot)].followRun = 1 ∧
       ((strayed 100).takeDriveFrame o d).seq.state = .running) := by decide +kernel

/-- A recording of the focus channel, closed by a change of its mode. -/
theorem witness_LensModeSetResult_recorded :
    (let p := recording direct .recording
     let q := { p with
       recorder := { p.recorder with slot := some 4, bufferA := ⟨.filling, some 0, []⟩ }
       array := { p.array with directory := p.array.directory.set 4 { DirectorySlot.reset with
         state := .recording, bays := [14], info := { TakeInfo.reset with mask := 0x100#12 } } } }
     q.array.directory[(4 : DirIx)].info.mask.getLsbD 8 = true ∧
       (q.shaper.chans[(8 : Slot)].source ≠ .take ∧ q.shaper.chans[(8 : Slot)].v = 0) ∧
       code (.lensModeSet 1 8 0) q = some .done ∧
       (after (.lensModeSet 1 8 0) q).recorder.closeReason = .mode) := by decide +kernel

theorem witness_ArrayClearResult_retires :
    (let p := busyWith (shelf ready) (.job (.clearRetire 3 13) false)
     p.array.directory[(7 : DirIx)].state = .retiring ∧
       p.array.directory[(7 : DirIx)].bays.head? = some 17 ∧
       (after .pageProgramComplete p).array.operation = some (.job (.clearRetire 7 17) false)) ∧
    (let p := busyWith (shelf ready) (.job (.clearRetire 7 17) false)
     (after .pageProgramComplete p).array.directory[(7 : DirIx)].state = .empty) := by decide +kernel

/-- The scan at a data page of the take in slot 0, no page of it programmed. -/
def paging : Part := { shelf idle with array := { (shelf idle).array with
  operation := none, scanComplete := false
  scan := some { Scan.begin with phase := .pages 0 2 true [1] } } }

theorem witness_ArrayCompletions_scan :
    (scanning 511).array.scan = some { Scan.begin with phase := .headers 511 } ∧
    (after .scanReadComplete (scanning 511)).array.scanComplete = true ∧
    paging.array.scan = some { Scan.begin with phase := .pages 0 2 true [1] } ∧
    (after .scanReadComplete paging).array.directory[(0 : DirIx)].state = .closed ∧
    (after .scanReadComplete paging).array.scan = some { Scan.begin with phase := .pages 1 0 false [] } ∧
    (busyWith (shelf ready) (.job (.writeHeader 15 ⟨5, 0, TakeInfo.reset⟩) false)).array.operation =
      some (.job (.writeHeader 15 ⟨5, 0, TakeInfo.reset⟩) false) := by decide +kernel

/-- The recorder at work on the take of slot 4, page 0 Filling in buffer A. -/
def writing (st : RecorderState) (bytes : Nat) : Part :=
  let p := recording (shelf running) st
  { p with
    array := { p.array with operation := none }
    recorder := { p.recorder with
      slot := some 4, whole := false, bufferA := ⟨.filling, some 0, List.replicate bytes 0#8⟩
      bufferB := ⟨.free, none, []⟩, nextPage := 1 } }

/-- A page of one channel keeps 32 bytes of headroom: 222 bytes are roomy, 223 are not. -/
theorem witness_RecorderRequests_work :
    (writing .recording 0).recorder.slot = some 4 ∧ (writing .recording 0).recorder.filling = some .a ∧
    (writing .armed 0).recorderServing.recorder.state = .recording ∧
    (let p := { writing .armed 0 with recorder := { (writing .armed 0).recorder with trigger := .cue } }
     p.recorderServing = p ∧ p.tellRecorder.recorder.state = .recording) ∧
    (writing .recording 0).recorderServing.recorder.clock = 1 ∧
    (writing .recording 214).sampleInstant.recorder.bufferA.state = .filling ∧
    (writing .recording 215).sampleInstant.recorder.bufferA.state = .queued ∧
    (let p := writing .recording 0
     { p with recorder := { p.recorder with clock := 4294967295 } }.sampleInstant.recorder.state = .recording ∧
     { p with recorder := { p.recorder with clock := 4294967296 } }.sampleInstant.recorder.state = .closing) ∧
    (writing .stalled 0).sampleInstant.recorder.stallCount = 1 ∧
    (let p := writing .recording 0
     let q := { p with array := { p.array with erased := [], dirty := [] }
                       recorder := { p.recorder with bufferA := ⟨.filling, some 254, []⟩ } }
     q.turnPage.recorder.state = .closing ∧
     { q with array := { q.array with dirty := [9] } }.turnPage.recorder.state = .stalled) ∧
    (let p := writing .stalled 0
     let q := { p with recorder := { p.recorder with bufferB := ⟨.queued, some 1, []⟩, stallCount := 3 } }
     (q.closeRecording .stop).recorder.whole = true ∧
     (after .pageProgramComplete
       (busyWith q (.job (.recorderData 4 1 .b []) false))).recorder.state = .recording) ∧
    (let p := writing .closing 0
     (after .pageProgramComplete
       (busyWith p (.job (.recorderData 4 1 .b []) false))).recorder.state = .idle) ∧
    (let p := writing .stalled 0
     let q := { p with recorder := { p.recorder with bufferA := ⟨.filling, some 254, []⟩ } }
     (after .bayEraseComplete
       (busyWith { q with array := { q.array with erased := [] } } (.erase 9))).recorder.state = .recording) := by
  decide +kernel

/-- A read of the player's in progress. -/
def fetching (st : PlayerState) (w : Bool) : Part :=
  busyWith { atCue st with player := { (atCue st).player with played := 0x002#12 } }
    (.job (.playerRead 3 0) w)

/-- The entry before it in the shelf's take fails each check; a read page joins the prefetch. -/
theorem witness_PlayerPolls_reads :
    ((atCue .suspended).player.cues[(2 : CueIx)].owner = .part ∧
      (atCue .suspended).player.cues[(3 : CueIx)].owner = .controller) ∧
    (let p := atCue .stopped
     let q := { p with player := { p.player with
       cues := p.player.cues.set 2 { p.player.cues[(2 : CueIx)] with start := 100 } } }
     q.enterFetching.player.cues[(2 : CueIx)].status = .badTake ∧
     q.enterFetching.player.state = .suspended) ∧
    (let p := atCue .stopped
     p.array.directory[(3 : DirIx)].samples + p.array.directory[(3 : DirIx)].gaps = 100) ∧
    (fetching .fetching false).array.playerJobs = [] ∧
    (fetching .fetching false).array.operation = some (.job (.playerRead 3 0) false) ∧
    ((fetching .fetching false).playerReadDone 0 none).player.cues[(2 : CueIx)].status = .badTake ∧
    ((fetching .playing false).playerReadDone 0 none).player.prefetch = [⟨0, false, []⟩] ∧
    (after .pageReadComplete (fetching .playing true)).player.prefetch = [] ∧
    (let p := fetching .fetching false
     let x := { p with array := { p.array with operation := none } }
     let page : List Byte := [0x01, 0, 0, 0, 0xE8, 0x03, 0, 0]
     (x.playerReadDone 0 (some page)).player.state = .approaching ∧
     (x.playerReadDone 0 (some page)).player.held[(1 : Slot)] = some 65536000 ∧
     (let r := { x with player := { x.player with tauStart := 65536 } }
      (r.playerReadDone 0 (some page)).array.playerJobs = [.playerRead 3 1]) ∧
     (let r := { x with shaper := { x.shaper with axes := x.shaper.axes.set 1 { swing with pmax := 999 } } }
      (r.playerReadDone 0 (some page)).player.cues[(2 : CueIx)].status = .outOfWindow)) := by decide +kernel

set_option maxRecDepth 8000 in
/-- A page that an operation has programmed reads back with its check good. -/
theorem witness_PlayerPolls_readable :
    (let p := fetching .fetching false
     let m := p.array.memory.program 852224 (dataPageBytes (padEntries [0x01, 0, 0, 0, 0xE8, 0x03, 0, 0]))
     ({ p.array with memory := m }.readData 3 0).isSome = true) := by decide +kernel

/-- Two samples of the swing, 0 and 1,000, in one readable page that is the take's last. -/
def rolling (st : PlayerState) (tau : Nat) : Part :=
  let p := atCue st
  { p with
    array := { p.array with operation := none }
    player := { p.player with
      played := 0x002#12, tau := tau, tauEnd := 65536, delta := 32768, firstStep := false
      prefetch := [⟨1, true, [0x01, 0, 0, 0, 0, 0, 0, 0, 0x01, 0, 0, 0, 0xE8, 0x03, 0, 0]⟩] } }

theorem witness_PlayerRequests_play :
    ((rolling .playing 0).walked.map fun w => w.points) = [[⟨0, [0]⟩, ⟨1, [1000]⟩]] ∧
    (rolling .playing 0).playerServing.player.held[(1 : Slot)] = some 32768000 ∧
    (rolling .playing 0).playerServing.player.state = .playing ∧
    (rolling .playing 32768).playerServing.player.state = .closing ∧
    -- the take's last page is page 1: without it the step starves
    (let p := rolling .playing 0
     let q := { p with player := { p.player with prefetch := [] } }
     q.seq.state = .running ∧ q.playerServing.player.state = .halted ∧ q.playerServing.player.tauHalt = 0 ∧
       q.playerServing.seq.state = .ramping) ∧
    (let p := rolling .waiting 0
     p.player.cues[p.player.pointer].trigger = .immediate ∧ p.prefetchComplete = true ∧
       p.playerServing.player.state = .playing) ∧
    (let p := rolling .closing 65536
     let q := { p with player := { p.player with held := p.player.held.set 1 (some 65536000) } }
     let r := Vector.replicate 12 (8589934592 : Int)
     q.arrivalReport r = q ∧
     (let x := { q with shaper := ready.shaper }
      let y := x.arrivalReport (Vector.replicate 12 0)
      y.player.cues[(2 : CueIx)].status = .done ∧ y.player.state = .suspended ∧
        y.shaper.chans[(1 : Slot)].park = 65536000)) ∧
    (let p := { rolling .approaching 0 with shaper := ready.shaper }
     (p.arrivalReport (Vector.replicate 12 0)).player.state = .waiting) ∧
    -- the worked example of section 10.6: one correction
    (let p := rolling .playing 8192000
     let q := { p with player := { p.player with
       delta := 65536, liveMark := 3, entryTau := 0
       cues := p.player.cues.set 2 { p.player.cues[(2 : CueIx)] with lock := true, speed := 4096 }
       context := { TakeContext.begin with marks := [0, 1, 2] }
       prefetch := [⟨1, true, [0x03, 0, 0, 0xA0, 0, 0, 0, 0, 125, 0, 0, 0]⟩] } }
     q.takeMark 3 = some 8232960 ∧ (q.markToPlayer 149).player.correction = 88 ∧
       (q.markToPlayer 149).player.liveMark = 4) := by decide +kernel

/-- The swing at rest on a source, the demand and the rig's record at 152,684 (section 3.3). -/
def served (p : Part) (c : Channel) : Part := { timed p with
  shaper := { p.shaper with chans := p.shaper.chans.set 1 c }
  gateway := { (timed p).gateway with demands := p.gateway.demands.set 1 ⟨152684, 152684⟩ } }

/-- The first cycle of the worked example of section 3.3; Track, Stop and Parked; the end of a ramp; the
divergence check at a limit of 0 counts away and past it. -/
theorem witness_FillCycle_step :
    (let c : Channel := { Channel.reset with source := .live, p := 8589934592 }
     (after .fillCycle (served running c)).shaper.chans[(1 : Slot)].p = 8589934592 + 11453 ∧
     (after .fillCycle (served running c)).shaper.chans[(1 : Slot)].v = 11453 ∧
     (after .fillCycle (served running { c with source := .parked, park := 8589934592 })).shaper.chans[
       (1 : Slot)].v = 0) ∧
    (after .fillCycle (served ready Channel.reset)).shaper.chans[(1 : Slot)].p = 8589934592 ∧
    (let q := inState ready .ramping
     let c : Channel := { Channel.reset with source := .stop, p := 8589934592, v := 11453, rampDecel := 11453 }
     (after .fillCycle (served q c)).shaper.chans[(1 : Slot)].p = 8589934592 ∧
     (after .fillCycle (served q c)).seq.state = .settling ∧
     (after .fillCycle (served q c)).seq.phaseStart = 1 ∧
     (after .fillCycle (served q { c with v := 11454 })).seq.state = .ramping) := by decide +kernel

/-- Cycle 47 served from a frame whose demands are all invalid, the swing following its drive. -/
theorem witness_ServedFrame_step :
    (after (.cycleFrame 500 (cycleBytes 47 [])) (served ready Channel.reset)).shaper.chans[(1 : Slot)].p =
      8589934592 ∧
    (after (.cycleFrame 500 (cycleBytes 47 [])) (served ready Channel.reset)).gateway.cycle = 47 := by
  decide +kernel

/-- The focus channel on Live takes its demand as the last demand, and keeps the old one while stale. -/
theorem witness_FillCycle_lens :
    (let p := timed direct
     let q := { p with gateway := { p.gateway with demands := p.gateway.demands.set 8 ⟨8500, 8500⟩ } }
     let stale := { q with gateway := { q.gateway with
       feedback := q.gateway.feedback.set 8 { q.gateway.feedback[(8 : Slot)] with stale := true } } }
     q.shaper.chans[(8 : Slot)].source = .live ∧
     (after .fillCycle q).lens.chans[(0 : LensIx)].lastDemand = 8500 ∧
     (after .fillCycle stale).lens.chans[(0 : LensIx)].lastDemand =
       q.lens.chans[(0 : LensIx)].lastDemand ∧
     (let t : List LensPair := [⟨1000, 2000⟩, ⟨2000, 9000⟩]
      let w := { q with lens := q.lens.setChan 0 { q.lens.chans[(0 : LensIx)] with pending := some t } }
      (after .fillCycle w).lens.chans[(0 : LensIx)].active = t)) := by decide +kernel

/-- A played cue whose next take value lies 500 counts on, the swing's limit at 499 or 500 counts from what
one cycle can reach. -/
theorem witness_FillCycle_diverged :
    (let diverging (limit : Nat) : Part :=
       let p := rolling .playing 0
       let c : Channel := { Channel.reset with source := .take }
       { timed p with shaper := { p.shaper with
         chans := p.shaper.chans.set 1 c, axes := p.shaper.axes.set 1 { swing with divergence := limit } } }
     (after .fillCycle (diverging 499)).seq.causes.getLsbD 8 = true ∧
     (after .fillCycle (diverging 499)).player.haltReason = .diverged ∧
     (after .fillCycle (diverging 500)).seq.causes.getLsbD 8 = false ∧
     (after .fillCycle (diverging 0)).seq.causes.getLsbD 8 = false) := by decide +kernel

/-- The reference after a reading of cycle 105, and of a stale slot. -/
theorem witness_StandstillReading_reference :
    ((settling .ramp).sequencerReading 106).seq.axes[(1 : Axis)].reference = some ⟨131072, 106⟩ ∧
    ((settling .ramp).sequencerReading 106).seq.axes[(1 : Axis)].stillRun = 0 ∧
    (let p := settling .ramp
     let q := { p with gateway := { p.gateway with
       feedback := p.gateway.feedback.set 1 { feedbackAt 131072 with stale := true } } }
     (q.sequencerReading 105).seq.axes[(1 : Axis)].reference = none) := by decide +kernel

/-- The serving that brings the phase count to the timeout, and the one before it. -/
theorem witness_SequencerTimers_serving :
    (counted (settling .hold) 2999).sequencerServing.seq.state = .safeOff ∧
    (counted (settling .hold) 2998).sequencerServing.seq.state = .settling ∧
    (counted (inState ready .braking) 249).sequencerServing.seq.state = .safeOff ∧
    (counted (inState ready .braking) 248).sequencerServing.seq.phaseCount = 249 ∧
    (counted (inState ready .arming) 3999).sequencerServing.seq.state = .safeOff ∧
    ready.sequencerServing = ready := by decide +kernel

/-- Timers one short of their counts, confirmed brakes, sync times not set, operations of another kind. -/
theorem witness_EventsNotDueChangeNothing_inside :
    ((counted (settling .hold) 2999).seq.phaseCount < 3000 ∧
      (after .stillTimeout (counted (settling .hold) 2999)).seq.state = .settling) ∧
    ((after .brakeTimer (counted (inState ready .braking) 249)).seq.state = .braking ∧
      (after .brakeTimeout (counted (inState ready .braking) 1999)).seq.state = .braking ∧
      ∀ a : Axis, idle.shaper.axes[Axis.slot a].present = true → idle.seq.axes[a].confirmed = true) ∧
    ((after .armingTimeout (counted (inState ready .arming) 3999)).seq.state = .arming ∧
      (inState ready .arming).seq.readiness = false ∧
      (let p := inState ready .arming
       let q := { p with seq := { p.seq with readiness := true, releaseServed := 249 } }
       (after .releaseTimer q).seq.state = .arming)) ∧
    ((synced .locked 3).sync.lossTime = none ∧ (synced .freewheel 3).sync.nextSynth = none) ∧
    ((after .pageReadComplete (busyWith (shelf ready) (.job (.lock 0 0 10) false))).array.operation =
        some (.job (.lock 0 0 10) false) ∧
      (after .pageProgramComplete (shelf ready)).array.operation = some (.erase 30) ∧
      (after .bayEraseComplete (busyWith (shelf ready) (.job (.takeRead 0 0 1) false))).array.operation =
        some (.job (.takeRead 0 0 1) false)) := by decide +kernel

/-- The worked sequence of section 7.4 from its third interval on, with a phase weight. -/
def camera (weight : Nat) : Part := { idle with
  gateway := { idle.gateway with servedTime := 245400, period := 1000 }
  sync := { idle.sync with
    state := .acquiring, reference := some 183422, zprev := 41712, zn := 41710, zavg := 41711
    agreement := 2, weight := weight } }

/-- The edge at 225,130: with weight 128 its phase point, with weight 0 its mark at once. -/
theorem witness_SyncEdges_phase :
    (after (.syncEdge 225130) (camera 128)).sync.phasePoint = some 245984 ∧
    (after (.syncEdge 225130) (camera 128)).sync.lossTime = some 287693 ∧
    (after (.syncEdge 225130) (camera 128)).sync.frameCount = 0 ∧
    (after (.syncEdge 225130) (camera 0)).sync.phasePoint = none ∧
    (after (.syncEdge 225130) (camera 0)).sync.frameCount = 1 ∧
    (let p := after (.syncEdge 225130) (camera 128)
     (after (.syncEdge 266839) p).sync.phasePoint = some 287693 ∧
       (after (.syncEdge 266839) p).sync.frameCount = 1) ∧
    (camera 128).gateway.phaseAt 245984 = 149 := by decide +kernel

/-- The loss at 329,401, whose phase point is that very moment, and the synthesis at 350,255. -/
theorem witness_SyncTimers_phase :
    (let p := { camera 128 with sync := { (camera 128).sync with
       state := .locked, reference := some 266839, zavg := 41708, lossTime := some 329401, frameCount := 2 } }
     (after .lossTime p).sync.reference = some 308547 ∧ (after .lossTime p).sync.phasePoint = none ∧
       (after .lossTime p).sync.frameCount = 3 ∧ (after .lossTime p).sync.nextSynth = some 350255 ∧
       (after .edgeSynthesis (after .lossTime p)).sync.phasePoint = some 371109) := by decide +kernel

/-- A chain of three with its bays out of order, and the same without its index 1. -/
theorem witness_ArrayCompletions_chain :
    (let h (k : Nat) : TakeHeader := ⟨3, k, TakeInfo.reset⟩
     chainFrom [⟨5, h 0, false⟩, ⟨7, h 2, false⟩, ⟨9, h 1, false⟩] (h 0) 512 0 = [5, 9, 7] ∧
     chainFrom [⟨5, h 0, false⟩, ⟨7, h 2, false⟩] (h 0) 512 0 = [5] ∧
     chainFrom [⟨5, h 0, false⟩, ⟨7, h 1, false⟩, ⟨9, h 1, false⟩] (h 0) 512 0 = [5, 7]) := by
  decide +kernel

theorem count_finRange : ∀ (n : Nat) (i : Fin n), (List.finRange n).count i = 1
  | n + 1, i => by
    rw [List.finRange_succ, List.count_cons, List.count, List.countP_map]
    cases i using Fin.cases with
    | zero =>
      have h : List.countP ((fun x => x == (0 : Fin (n + 1))) ∘ Fin.succ) (List.finRange n) = 0 :=
        List.countP_eq_zero.2 fun x _ => by simp [Fin.succ_ne_zero]
      rw [h]; simp
    | succ j =>
      have h : ((fun x => x == j.succ) ∘ Fin.succ : Fin n → Bool) = fun x => x == j := by
        funext x; rw [Bool.eq_iff_iff]; simp
      have h2 := count_finRange n j
      rw [List.count] at h2
      rw [h, h2, beq_false_of_ne (Fin.succ_ne_zero j).symm]; rfl

/-- The bays from 2 on. -/
@[irreducible] def stock : List Bay := (List.finRange 512).filter fun b => decide (2 ≤ b.val)

/-- One bay in the take of slot 0, one under erase, the others erased. -/
def stocked : Part := { idle with array := { idle.array with
  operation := some (.erase 1), erased := stock
  directory := idle.array.directory.set 0 (take 0 .closed) } }

theorem stock_count (bay : Bay) (h : 2 ≤ bay.val) : stock.count bay = 1 := by
  unfold stock
  exact (List.count_filter (p := fun b : Bay => decide (2 ≤ b.val)) (decide_eq_true h)).trans
    (count_finRange 512 bay)

theorem stock_once (t : TakeArray) (he : t.erased = stock) (hd : t.dirty = [])
    (ho : t.operation = some (.erase 1)) (hs : t.suspended = none)
    (h : ((List.finRange 64).flatMap fun i : DirIx => t.directory[i].bays) = [0]) (bay : Bay) :
    t.places.count bay = 1 := by
  rw [TakeArray.places, he, hd, ho, hs, h]
  by_cases hb : 2 ≤ bay.val
  · have h0 : (0 : Bay) ≠ bay := fun e => by subst e; exact absurd hb (by decide)
    have h1 : (1 : Bay) ≠ bay := fun e => by subst e; exact absurd hb (by decide)
    have h2 := stock_count bay hb
    simp [h0, h1, h2]
  · have h2 : stock.count bay = 0 :=
      List.count_eq_zero_of_not_mem (by unfold stock; simp [hb])
    have : bay.val = 0 ∨ bay.val = 1 := by omega
    rcases this with e | e
    · obtain rfl : bay = 0 := Fin.ext e
      simp [h2]
    · obtain rfl : bay = 1 := Fin.ext e
      simp [h2]

theorem stocked_once (bay : Bay) : stocked.array.places.count bay = 1 :=
  stock_once _ rfl rfl rfl rfl (by decide +kernel) bay

theorem stocked_law : stocked.BayLaw where
  once _ := stocked_once
  oneErase _ _ := rfl
  empty := by decide +kernel
  scanning _ h := by cases h
  retire _ _ h := by cases h
  clear _ _ h := by cases h
  recording h := absurd rfl h
  reserved _ h := by cases h

/-- The erase of bay 1 completes: it joins the erased queue. -/
theorem witness_BaysStandOnce : stocked.BayLaw ∧
    step ⟨stocked, [.bayEraseComplete]⟩ = .next ⟨after .bayEraseComplete stocked, []⟩ ∧
    (after .bayEraseComplete stocked).array.erased.getLast? = some 1 :=
  ⟨stocked_law, rfl, by decide +kernel⟩

/-- The worked sequence of section 8.3: the player's read suspends the erase, the recorder's program precedes the
Take Read, and the erase resumes when nothing waits. -/
theorem witness_ControllerChooses :
    (let erasing (t : TakeArray) : Part := { shelf ready with array := { t with dirty := [41, 42] } }
     let p := erasing { (shelf ready).array with playerJobs := [.playerRead 0 0] }
     p.array.operation = some (.erase 30) ∧ p.array.Available (.playerRead 0 0) ∧
       p.kick.array.operation = some (.job (.playerRead 0 0) false) ∧ p.kick.array.suspended = some 30 ∧
       p.kick.array.dirty = [41, 42] ∧
       (let q := erasing { p.kick.array with
          operation := none, recorderJobs := [.recorderData 4 0 .a []], laneJobs := [.takeRead 0 0 1] }
        q.choose.array.operation = some (.job (.recorderData 4 0 .a []) false) ∧
          q.choose.array.laneJobs = [.takeRead 0 0 1]) ∧
       (let q := erasing { p.kick.array with operation := none }
        q.choose.array.operation = some (.erase 30) ∧ q.choose.array.suspended = none) ∧
       (let q := erasing { p.kick.array with operation := none, suspended := none }
        q.choose.array.operation = some (.erase 41) ∧ q.choose.array.dirty = [42])) ∧
    ¬ (shelf ready).array.Available (.takeRead 0 7 0) := by
  unfold TakeArray.Available; decide +kernel

theorem witness_ControllerChooses_work : stocked.WorkLaw ∧
    step ⟨stocked, [.takeRead 1 0 0]⟩ = .next ⟨after (.takeRead 1 0 0) stocked, []⟩ ∧
    (after (.takeRead 1 0 0) stocked).array.suspended = some 1 :=
  ⟨⟨fun h => absurd rfl h, fun _ _ => rfl, fun _ _ => ⟨rfl, rfl, rfl⟩, fun _ h => by cases h⟩, rfl,
    by decide +kernel⟩

/-- Arming with no axis shown ready: the swing is the detail. -/
theorem witness_SequencerTimers_unready :
    (let p := counted (inState ready .arming) 4000
     p.seq.readiness = false ∧ p.seq.axes[(1 : Axis)].shown = false ∧
       (after .armingTimeout p).seq.firstCause = some (p.seq.firstCause.getD ⟨.armFail, 1⟩)) := by
  decide +kernel

/-- A Page Write's page of one Sample is counted in. -/
theorem witness_ArrayCompletions_write :
    (let p := busyWith (shelf ready) (.job (.writeData 0 5 2 samplePage) false)
     let d := (after .pageProgramComplete p).array.directory[(5 : DirIx)]
     d.dataPages = 3 ∧ d.samples = 101 ∧ d.marks = 0 ∧ d.gaps = 0) := by decide +kernel

end Sys2Proof.Tests
end

section
/-! SETTLED. Source Live (R43): its refusals in order, and each named Parked channel takes Live. -/

namespace Sys2Proof.Machine

/-! ### What a mask field names -/

/-- R43 step 1, R192: the field names an absent channel, or a slot that does not exist. -/
def Shaper.FieldNamesAbsent (sh : Shaper) (field : BitVec 16) : Prop :=
  4096 ≤ field.toNat ∨ ∃ c : Slot, field.getLsbD c.val = true ∧ sh.axes[c].present = false

/-- R43 step 2: the field names a channel that Source Live may not take, or a motion axis while the stop
state is not Running. -/
def Part.FieldNamesHeld (s : Part) (field : BitVec 16) : Prop :=
  (∃ c : Slot, field.getLsbD c.val = true ∧ (s.shaper.chans[c].source = .take ∨
    s.shaper.chans[c].source = .stop ∨ s.shaper.chans[c].source = .track)) ∨
  (s.seq.state ≠ .running ∧ ∃ a : Axis, field.getLsbD a.val = true)

theorem maskOfField_eq_none {field : BitVec 16} (h : 4096 ≤ field.toNat) : maskOfField field = none :=
  if_neg (Nat.not_lt.mpr h)

theorem maskOfField_eq_some {field : BitVec 16} (h : field.toNat < 4096) :
    maskOfField field = some (field.setWidth 12) :=
  if_pos h

theorem Mask.has_setWidth (field : BitVec 16) (c : Slot) :
    Mask.has (field.setWidth 12) c = field.getLsbD c.val := by
  simp [Mask.has]

/-- A test over the slots that a mask names. -/
theorem Mask.any_slots (m : Mask) (p : Slot → Bool) :
    (Mask.slots m).any p = true ↔ ∃ c : Slot, Mask.has m c = true ∧ p c = true := by
  simp [Mask.slots, Mask.has]

/-! ### The tests of Source Live -/

theorem Source.heldFromLive_iff (src : Source) :
    src.heldFromLive = true ↔ src = .take ∨ src = .stop ∨ src = .track := by
  cases src <;> simp [Source.heldFromLive]

/-- The motion axes are the slots 0 to 7. -/
theorem exists_motion_slot_iff (field : BitVec 16) :
    (∃ c : Slot, field.getLsbD c.val = true ∧ isMotion c = true) ↔
      ∃ a : Axis, field.getLsbD a.val = true := by
  constructor
  · rintro ⟨c, named, motion⟩
    exact ⟨⟨c.val, of_decide_eq_true motion⟩, named⟩
  · rintro ⟨a, named⟩
    exact ⟨Axis.slot a, named, decide_eq_true a.isLt⟩

theorem Shaper.any_absent_iff (sh : Shaper) {field : BitVec 16} (h : field.toNat < 4096) :
    ((Mask.slots (field.setWidth 12)).any fun c => !sh.axes[c].present) = true ↔
      sh.FieldNamesAbsent field := by
  simp only [Mask.any_slots, Mask.has_setWidth, Bool.not_eq_true', Shaper.FieldNamesAbsent,
    Nat.not_le.mpr h, false_or]

theorem Part.heldTests_iff (s : Part) (field : BitVec 16) :
    (((Mask.slots (field.setWidth 12)).any fun c => s.shaper.chans[c].source.heldFromLive) = true ∨
      ((Mask.slots (field.setWidth 12)).any fun c => isMotion c) = true ∧ s.seq.state ≠ .running) ↔
      s.FieldNamesHeld field := by
  simp only [Mask.any_slots, Mask.has_setWidth, Source.heldFromLive_iff, exists_motion_slot_iff,
    Part.FieldNamesHeld, and_comm (b := s.seq.state ≠ .running)]

/-- R43: the channels after Source Live. -/
theorem Shaper.goLive_setWidth (sh : Shaper) (field : BitVec 16) :
    sh.goLive (field.setWidth 12) = { sh with
      chans := Vector.ofFn fun c : Slot =>
        if field.getLsbD c.val = true ∧ sh.chans[c].source = .parked then
          { sh.chans[c] with source := .live }
        else sh.chans[c] } := by
  simp [Shaper.goLive, Shaper.mapChans, Mask.has_setWidth, Channel.withSource]

/-! ### The answers of Source Live -/

theorem Part.requestSourceLive_setup {s : Part} (field : BitVec 16) (setup : s.lane.mode = .setup) :
    s.requestSourceLive field = refuse s .wrongMode :=
  if_pos setup

open Classical in
/-- R43 in Run: the refusals in order, then the effect. -/
theorem Part.requestSourceLive_run {s : Part} (field : BitVec 16) (inRun : s.lane.mode = .run) :
    s.requestSourceLive field =
      if s.shaper.FieldNamesAbsent field then refuse s .range
      else if s.FieldNamesHeld field then refuse s .wrongState
      else done { s with shaper := s.shaper.goLive (field.setWidth 12) } := by
  unfold Part.requestSourceLive
  rw [if_neg (by simp [inRun])]
  rcases Nat.lt_or_ge field.toNat 4096 with inside | outside
  · rw [maskOfField_eq_some inside]
    dsimp only
    refine ite_congr (propext (s.shaper.any_absent_iff inside)) (fun _ => rfl) fun _ => ?_
    by_cases held : s.FieldNamesHeld field
    · rw [if_pos held]
      rcases (s.heldTests_iff field).mpr held with source | motion
      · rw [if_pos source]
      · rw [if_pos motion, ite_self]
    · obtain ⟨source, motion⟩ := not_or.mp (mt (s.heldTests_iff field).mp held)
      rw [if_neg held, if_neg source, if_neg motion]
  · rw [maskOfField_eq_none outside, if_pos (.inl outside)]

/-! ### The statement -/

/-- Settles O22: each answer of the request, read with its reply reserved, stands at the tail of the queue. -/
theorem sourceLiveResult : Obligations.SourceLiveResult := by
  unfold Obligations.SourceLiveResult
  intro tag mask s room absent held
  have answered {t : Part} (served : s.part.serveSourceLive tag mask = t) :
      exec (.sourceLive tag mask) s = .next { s with part := t } := served ▸ rfl
  refine ⟨fun setup => answered ?_, fun inRun isAbsent => answered ?_,
    fun inRun present isHeld => answered ?_, fun inRun present free => answered ?_⟩
  · exact serveRequest_refused room (Part.requestSourceLive_setup mask setup)
  · exact serveRequest_refused room (Eq.trans (Part.requestSourceLive_run mask inRun) (if_pos isAbsent))
  · exact serveRequest_refused room (Eq.trans (Part.requestSourceLive_run mask inRun)
      (Eq.trans (if_neg present) (if_pos isHeld)))
  · rw [← Shaper.goLive_setWidth]
    exact serveRequest_answered room (Eq.trans (Part.requestSourceLive_run mask inRun)
      (Eq.trans (if_neg present) (if_neg free))) rfl rfl

end Sys2Proof.Machine
end

section
/-! SETTLED. Lens Points (R110): its refusals in order, and the staging entries it writes. -/

namespace Sys2Proof

/-- R110 step 1: the channel is a lens channel and the start index an entry of the table. -/
def LensPointsFields.Placed (f : LensPointsFields) : Prop :=
  8 ≤ f.channel ∧ f.channel ≤ 11 ∧ f.start ≤ 63

/-- R110 step 3: the pair count and every pair lie in their ranges. -/
def LensPointsFields.Paired (f : LensPointsFields) : Prop :=
  1 ≤ f.pairs.length ∧ f.pairs.length ≤ 59 ∧
    ∀ p ∈ f.pairs, p.phys ≤ 16777215 ∧ -8388607 ≤ p.count ∧ p.count ≤ 8388607

end Sys2Proof

namespace Sys2Proof.Machine

/-! ### The lens channels of a channel field -/

theorem lensIxOf_eq_some {n : Nat} {l : LensIx} (h : n = l.val + 8) : lensIxOf n = some l := by
  unfold lensIxOf
  rw [dif_pos (by omega)]
  simp [h]

theorem lensIxOf_eq_none {n : Nat} (h : ¬ (8 ≤ n ∧ n < 12)) : lensIxOf n = none :=
  dif_neg h

theorem exists_lensIx {n : Nat} (low : 8 ≤ n) (high : n ≤ 11) : ∃ l : LensIx, n = l.val + 8 :=
  ⟨⟨n - 8, by omega⟩, by dsimp only; omega⟩

/-! ### The staging table after a load -/

theorem writeStaging_cons (t : Vector StagingEntry 64) (n : Nat) (p : LensPair)
    (rest : List LensPair) :
    writeStaging t n (p :: rest) =
      writeStaging (t.set (n % 64) ⟨p.phys, p.count, true⟩ (Nat.mod_lt _ (by omega))) (n + 1) rest :=
  rfl

/-- A load leaves the entries that no pair falls on. -/
theorem writeStaging_getElem_of_untouched {k : Fin 64} {pairs : List LensPair} :
    ∀ {t : Vector StagingEntry 64} {n : Nat}, (∀ j < pairs.length, k.val ≠ (n + j) % 64) →
      (writeStaging t n pairs)[k] = t[k] := by
  induction pairs with
  | nil => exact fun _ => rfl
  | cons p rest ih =>
    intro t n apart
    have headApart : k.val ≠ n % 64 := apart 0 (by simp)
    have restApart : ∀ j < rest.length, k.val ≠ (n + 1 + j) % 64 := fun j hj => by
      have := apart (j + 1) (by simpa using hj)
      rwa [show n + 1 + j = n + (j + 1) by omega]
    rw [writeStaging_cons, ih restApart]
    exact Vector.getElem_set_ne _ _ headApart.symm

/-- A load of at most 64 pairs writes no entry twice, so that each pair stands in its entry afterwards. -/
theorem writeStaging_getElem_of_pair {k : Fin 64} {p : LensPair} {pairs : List LensPair} :
    ∀ {t : Vector StagingEntry 64} {n j : Nat}, pairs.length ≤ 64 → pairs[j]? = some p →
      k.val = (n + j) % 64 → (writeStaging t n pairs)[k] = ⟨p.phys, p.count, true⟩ := by
  induction pairs with
  | nil => simp
  | cons q rest ih =>
    intro t n j short hp hk
    have restShort : rest.length + 1 ≤ 64 := short
    cases j with
    | zero =>
      obtain rfl : q = p := by simpa using hp
      have restApart : ∀ i < rest.length, k.val ≠ (n + 1 + i) % 64 := fun i hi => by omega
      rw [writeStaging_cons, writeStaging_getElem_of_untouched restApart]
      simp [hk]
    | succ j =>
      rw [writeStaging_cons]
      exact ih (by omega) (by simpa using hp) (by omega)

/-! ### The answers of Lens Points -/

theorem pairInRange_iff (p : LensPair) :
    pairInRange p = true ↔ p.phys ≤ 16777215 ∧ -8388607 ≤ p.count ∧ p.count ≤ 8388607 := by
  simp [pairInRange, within]

/-- The request's own test of step 3. -/
theorem pairTests_iff (f : LensPointsFields) :
    (f.pairs.length < 1 ∨ 59 < f.pairs.length ∨ f.pairs.any (fun p => !pairInRange p) = true) ↔
      ¬ f.Paired := by
  have anyOut : f.pairs.any (fun p => !pairInRange p) = true ↔ ¬ ∀ p ∈ f.pairs, pairInRange p = true := by
    simp
  rw [anyOut]
  simp only [LensPointsFields.Paired, pairInRange_iff, Classical.not_and_iff_not_or_not, Nat.not_le]

/-- A lens channel with pairs loaded into its staging table. -/
def LensChannel.load (c : LensChannel) (n : Nat) (pairs : List LensPair) : LensChannel :=
  { c with staging := writeStaging c.staging n pairs, staged := true }

theorem Part.requestLensPoints_misplaced {s : Part} {f : LensPointsFields} (misplaced : ¬ f.Placed) :
    s.requestLensPoints f = refuse s .range := by
  unfold Part.requestLensPoints
  by_cases channel : 8 ≤ f.channel ∧ f.channel < 12
  · obtain ⟨l, hl⟩ := exists_lensIx channel.1 (by omega)
    have start : 63 < f.start := by
      unfold LensPointsFields.Placed at misplaced
      omega
    rw [lensIxOf_eq_some hl]
    exact if_pos start
  · rw [lensIxOf_eq_none channel]

open Classical in
/-- R110 steps 2 and 3 in their order, then the load. -/
theorem Part.requestLensPoints_placed {s : Part} {f : LensPointsFields} {l : LensIx}
    (channel : f.channel = l.val + 8) (start : f.start ≤ 63) :
    s.requestLensPoints f =
      if f.extra ≠ 0 then refuse s .invalid
      else if ¬ f.Paired then refuse s .range
      else done (s.putLens l (s.lens.chans[l].load f.start f.pairs)) := by
  unfold Part.requestLensPoints
  rw [lensIxOf_eq_some channel]
  dsimp only
  rw [if_neg (Nat.not_lt.mpr start)]
  exact ite_congr rfl (fun _ => rfl) fun _ =>
    ite_congr (propext (pairTests_iff f)) (fun _ => rfl) fun _ => rfl

/-! ### The statement -/

/-- Settles O47: each answer of the request, read with its reply reserved, stands at the tail of the queue; the
load is `writeStaging`, whose entries are read off pair by pair. -/
theorem lensPointsResult : Obligations.LensPointsResult := by
  unfold Obligations.LensPointsResult
  intro tag f s room placed paired
  have answered {t : Part} (served : s.part.serveLensPoints tag f = t) :
      exec (.lensPoints tag f) s = .next { s with part := t } := served ▸ rfl
  refine ⟨fun misplaced => answered ?_, fun isPlaced leftover => answered ?_,
    fun isPlaced whole unpaired => answered ?_, fun isPlaced whole isPaired => ?_⟩
  · exact serveRequest_refused room (Part.requestLensPoints_misplaced misplaced)
  all_goals
    obtain ⟨low, high, start⟩ := isPlaced
    obtain ⟨l, channel⟩ := exists_lensIx low high
  · exact serveRequest_refused room
      (Eq.trans (Part.requestLensPoints_placed channel start) (if_pos leftover))
  · exact serveRequest_refused room (Eq.trans (Part.requestLensPoints_placed channel start)
      (Eq.trans (if_neg (not_not_intro whole)) (if_pos unpaired)))
  · have ⟨_, count, _⟩ := isPaired
    have short : f.pairs.length ≤ 64 := by omega
    refine ⟨l, writeStaging s.part.lens.chans[l].staging f.start f.pairs, channel, answered ?_,
      fun j p k hp hk => writeStaging_getElem_of_pair short hp hk,
      fun k apart => writeStaging_getElem_of_untouched apart⟩
    exact serveRequest_answered room (Eq.trans (Part.requestLensPoints_placed channel start)
      (Eq.trans (if_neg (not_not_intro whole)) (if_neg (not_not_intro isPaired)))) rfl rfl

end Sys2Proof.Machine
end

section
/-! SETTLED. Cue Write (R172): its refusals in order, the entry it writes, and the cue owner map after it. -/

namespace Sys2Proof

/-- R172 step 3: every field lies in its range, and the end index does not come before the start. -/
def CueFields.InRange (f : CueFields) : Prop :=
  f.slot < 64 ∧ f.mask ≠ 0 ∧ f.mask.toNat < 4096 ∧ f.trigger ≤ 2 ∧
    (f.takeEnd = false → f.start ≤ f.endIx)

end Sys2Proof

namespace Sys2Proof.Machine

/-! ### The codes of the fields -/

theorem cueIxOf_eq_some {n : Nat} {i : CueIx} (h : n = i.val) : cueIxOf n = some i := by
  subst h
  exact dif_pos i.isLt

theorem cueIxOf_eq_none {n : Nat} (h : 16 ≤ n) : cueIxOf n = none :=
  dif_neg (Nat.not_lt.mpr h)

theorem dirIxOf_val (slot : DirIx) : dirIxOf slot.val = some slot :=
  dif_pos slot.isLt

theorem dirIxOf_eq_none {n : Nat} (h : 64 ≤ n) : dirIxOf n = none :=
  dif_neg (Nat.not_lt.mpr h)

theorem CueTrigger.ofCode_code (trigger : CueTrigger) :
    CueTrigger.ofCode trigger.code = some trigger := by
  cases trigger <;> rfl

theorem CueTrigger.exists_code_eq {n : Nat} (h : n ≤ 2) : ∃ trigger : CueTrigger, trigger.code = n :=
  match n, h with
  | 0, _ => ⟨.immediate, rfl⟩
  | 1, _ => ⟨.frame, rfl⟩
  | 2, _ => ⟨.go, rfl⟩

theorem CueTrigger.ofCode_eq_none {n : Nat} (h : 2 < n) : CueTrigger.ofCode n = none :=
  match n, h with
  | _ + 3, _ => rfl

theorem setWidth_twelve_eq_zero_iff {field : BitVec 16} (h : field.toNat < 4096) :
    field.setWidth 12 = 0 ↔ field = 0 := by
  bv_omega

/-! ### The bits of a Boolean bit field -/

theorem bitsOf_cons (b : Bool) (bits : List Bool) : bitsOf (b :: bits) = b.toNat + 2 * bitsOf bits := by
  cases b <;> rfl

theorem bitsOf_testBit (bits : List Bool) (n : Nat) : (bitsOf bits).testBit n = bits.getD n false := by
  induction bits generalizing n with
  | nil => exact Nat.zero_testBit n
  | cons b bits ih =>
    rw [bitsOf_cons]
    cases n with
    | zero =>
      rw [Nat.testBit_zero, Nat.add_mul_mod_self_left]
      cases b <;> rfl
    | succ n =>
      have half : (b.toNat + 2 * bitsOf bits) / 2 = bitsOf bits := by
        have := b.toNat_lt
        omega
      rw [Nat.testBit_succ, half, ih, List.getD_cons_succ]

/-- Bit i of the cue owner map shows whether entry i is part-owned. -/
theorem Player.ownerMap_getLsbD (p : Player) (i : CueIx) :
    p.ownerMap.getLsbD i.val = decide (p.cues[i].owner = .part) := by
  rw [Player.ownerMap, BitVec.getLsbD_ofNat, bitsOf_testBit]
  simp

/-! ### The entry that the fields spell -/

/-- The entry that Cue Write writes, given the take slot and the trigger that its fields name. -/
def CueFields.entry (f : CueFields) (slot : DirIx) (trigger : CueTrigger) : Cue :=
  { owner := if f.give then .part else .controller
    slot := slot, start := f.start, endIx := if f.takeEnd then none else some f.endIx
    speed := clampSpeed f.speed, mask := f.mask.setWidth 12, trigger := trigger
    lock := f.lock, recordWith := f.recordWith, status := .pending, startFrame := 0 }

open Classical in
/-- R172 step 3 where each field names something: what is left to refuse is an empty mask and an end index
below the start. -/
theorem CueFields.toCue_of_named {f : CueFields} {slot : DirIx} {trigger : CueTrigger}
    (slotNamed : slot.val = f.slot) (mask : f.mask.toNat < 4096)
    (triggerNamed : trigger.code = f.trigger) :
    CueFields.toCue f = if f.InRange then some (CueFields.entry f slot trigger) else none := by
  have rest : (f.mask.setWidth 12 = 0 ∨ (!f.takeEnd) = true ∧ f.endIx < f.start) ↔ ¬ f.InRange := by
    have slotLt : f.slot < 64 := slotNamed ▸ slot.isLt
    have triggerLe : f.trigger ≤ 2 := by
      rw [← triggerNamed]
      cases trigger <;> decide
    rw [setWidth_twelve_eq_zero_iff mask, Bool.not_eq_true', ← Nat.not_le]
    refine ⟨?_, fun out => ?_⟩
    · rintro (empty | ⟨bounded, late⟩) ⟨_, nonempty, _, _, ordered⟩
      · exact nonempty empty
      · exact late (ordered bounded)
    · refine Decidable.or_iff_not_imp_left.mpr fun nonempty => Decidable.byContradiction fun early => ?_
      exact out ⟨slotLt, nonempty, mask, triggerLe, fun bounded =>
        Decidable.byContradiction fun late => early ⟨bounded, late⟩⟩
  rw [← ite_not, CueFields.toCue, ← slotNamed, ← triggerNamed, dirIxOf_val, maskOfField_eq_some mask,
    CueTrigger.ofCode_code]
  exact ite_congr (propext rest) (fun _ => rfl) fun _ => rfl

theorem CueFields.toCue_eq_none {f : CueFields} (out : ¬ f.InRange) : CueFields.toCue f = none := by
  rcases Nat.lt_or_ge f.slot 64 with slotLt | slotOut
  case inr => rw [CueFields.toCue, dirIxOf_eq_none slotOut]
  have slotRead : dirIxOf f.slot = some ⟨f.slot, slotLt⟩ := dirIxOf_val ⟨f.slot, slotLt⟩
  rcases Nat.lt_or_ge f.mask.toNat 4096 with mask | maskOut
  case inr => rw [CueFields.toCue, slotRead, maskOfField_eq_none maskOut]
  rcases Nat.lt_or_ge 2 f.trigger with triggerOut | triggerLe
  · rw [CueFields.toCue, slotRead, maskOfField_eq_some mask, CueTrigger.ofCode_eq_none triggerOut]
  · obtain ⟨trigger, triggerNamed⟩ := CueTrigger.exists_code_eq triggerLe
    rw [CueFields.toCue_of_named (slot := ⟨f.slot, slotLt⟩) rfl mask triggerNamed, if_neg out]

/-! ### The answers of Cue Write -/

theorem Part.requestCueWrite_beyond {s : Part} {f : CueFields} (beyond : 16 ≤ f.index) :
    s.requestCueWrite f = refuse s .range := by
  rw [Part.requestCueWrite, cueIxOf_eq_none beyond]

theorem Part.requestCueWrite_owned {s : Part} {f : CueFields} {i : CueIx} (index : f.index = i.val)
    (owned : s.player.cues[i].owner = .part) : s.requestCueWrite f = refuse s .owned := by
  rw [Part.requestCueWrite, cueIxOf_eq_some index]
  exact if_pos owned

theorem Part.requestCueWrite_out {s : Part} {f : CueFields} {i : CueIx} (index : f.index = i.val)
    (free : s.player.cues[i].owner = .controller) (out : ¬ f.InRange) :
    s.requestCueWrite f = refuse s .range := by
  rw [Part.requestCueWrite, cueIxOf_eq_some index, CueFields.toCue_eq_none out]
  exact if_neg (by rw [free]; decide)

theorem Part.requestCueWrite_written {s : Part} {f : CueFields} {i : CueIx} {slot : DirIx}
    {trigger : CueTrigger} (index : f.index = i.val) (free : s.player.cues[i].owner = .controller)
    (inRange : f.InRange) (slotNamed : slot.val = f.slot) (triggerNamed : trigger.code = f.trigger) :
    s.requestCueWrite f = done (s.putCue i (CueFields.entry f slot trigger)) := by
  have ⟨_, _, mask, _, _⟩ := inRange
  rw [Part.requestCueWrite, cueIxOf_eq_some index,
    CueFields.toCue_of_named slotNamed mask triggerNamed, if_pos inRange]
  exact if_neg (by rw [free]; decide)

/-! ### The statement -/

/-- Settles O58: each answer of the request, read with its reply reserved, stands at the tail of the queue; the
owner map is read off bit by bit. -/
theorem cueWriteResult : Obligations.CueWriteResult := by
  unfold Obligations.CueWriteResult
  intro tag f s room
  have answered {t : Part} (served : s.part.serveCueWrite tag f = t) :
      exec (.cueWrite tag f) s = .next { s with part := t } := served ▸ rfl
  refine ⟨fun beyond => answered ?_, fun i index owned => answered ?_,
    fun i index free out => answered ?_, fun i index free inRange => ?_⟩
  · exact serveRequest_refused room (Part.requestCueWrite_beyond beyond)
  · exact serveRequest_refused room (Part.requestCueWrite_owned index owned)
  · exact serveRequest_refused room (Part.requestCueWrite_out index free out)
  · have ⟨slotLt, _, _, triggerLe, _⟩ := inRange
    obtain ⟨trigger, triggerNamed⟩ := CueTrigger.exists_code_eq triggerLe
    refine ⟨⟨f.slot, slotLt⟩, trigger, rfl, triggerNamed, answered ?_, ?_⟩
    · exact serveRequest_answered room
        (Part.requestCueWrite_written index free inRange rfl triggerNamed) rfl rfl
    · rw [Player.ownerMap_getLsbD]
      cases give : f.give <;> simp

end Sys2Proof.Machine
end

section
/-! SETTLED. How a step takes its command, and a part that meets the reply queue's law and leaves it. -/

namespace Sys2Proof.Machine

/-- A part at rest but for one completed read, with a request for a reply in the list of the player, where
no rule of the reply queue's law looks. -/
def strayRead : Part :=
  { Part.reset with
    array := { Part.reset.array with
      operation := some (.job (.playerRead 0 0) true)
      playerJobs := [.takeRead 0 0 0]
      directory := Part.reset.array.directory.set 0 { DirectorySlot.reset with state := .closed, bays := [0] }
      scanComplete := true
      scan := none } }

theorem strayRead_queueLaw : strayRead.QueueLaw where
  bounded := Nat.zero_le _
  rising := List.Pairwise.nil
  fresh := by intro e he; exact absurd he (List.not_mem_nil)
  jobs := by intro n hn; exact absurd hn (List.not_mem_nil)

/-- Once the read completes, the controller starts the stray request. -/
theorem strayRead_readCompleted_tickets : strayRead.readCompleted.array.tickets = [0] := by decide

/-- Refutes O39: the law says nothing of the lists of the player and the recorder. -/
theorem not_queueLawKept : ¬ Obligations.QueueLawKept := by
  unfold Obligations.QueueLawKept
  intro kept
  have law := kept ⟨strayRead, [.pageReadComplete]⟩ ⟨strayRead.readCompleted, []⟩ strayRead_queueLaw rfl
  have drawn := law.jobs 0 (by rw [strayRead_readCompleted_tickets]; exact List.mem_singleton_self 0)
  exact absurd drawn (by decide)

/-- Settles O1, by definition of the step. -/
theorem stepRunsFrontCommand : Obligations.StepRunsFrontCommand := by
  unfold Obligations.StepRunsFrontCommand
  exact ⟨fun _ _ _ => rfl, fun _ => rfl⟩
end Sys2Proof.Machine
end

section
set_option Elab.async false
/-! SETTLED. The controller's choice (R139, R140): what one round of it does, that its rounds suffice, and that it
leaves no work undone. -/

namespace Sys2Proof.Machine

/-! ### One round -/

/-- The oldest request that waits taken from its list: of the player's, then of the recorder's, then of the lane's. -/
def Part.taken (s : Part) : Part := { s with array := { s.array with
  playerJobs := s.array.playerJobs.tail
  recorderJobs := if s.array.playerJobs = [] then s.array.recorderJobs.tail else s.array.recorderJobs
  laneJobs := if s.array.playerJobs = [] ∧ s.array.recorderJobs = [] then s.array.laneJobs.tail
    else s.array.laneJobs } }

/-- The requests that wait, in the order in which the controller takes them. -/
def TakeArray.line (t : TakeArray) : List Job := t.playerJobs ++ t.recorderJobs ++ t.laneJobs

section
variable {s : Part}

theorem Part.taken_line (s : Part) : s.taken.array.line = s.array.line.tail := by
  unfold TakeArray.line Part.taken
  cases player : s.array.playerJobs with
  | cons => simp
  | nil => cases recorder : s.array.recorderJobs <;> simp

theorem TakeArray.line_length (t : TakeArray) : t.line.length = t.waiting := by
  simp only [TakeArray.line, TakeArray.waiting, List.length_append]

theorem TakeArray.line_nil {t : TakeArray} :
    t.line = [] ↔ t.playerJobs = [] ∧ t.recorderJobs = [] ∧ t.laneJobs = [] := by
  simp only [TakeArray.line, List.append_eq_nil_iff, and_assoc]

theorem Part.chooseRounds_rests (busy : s.array.operation ≠ none ∨ s.array.scan ≠ none) (n : Nat) :
    Part.chooseRounds n s = s := by
  cases n with
  | zero => rfl
  | succ n => exact if_pos busy

theorem Part.chooseRounds_takes {j : Job} {more : List Job} (idle : s.array.operation = none)
    (ended : s.array.scan = none) (front : s.array.line = j :: more) (n : Nat) :
    Part.chooseRounds (n + 1) s = Part.chooseRounds n (s.taken.startJob j) := by
  have free : ¬ (s.array.operation ≠ none ∨ s.array.scan ≠ none) := by simp [idle, ended]
  rw [Part.chooseRounds, if_neg free]
  unfold TakeArray.line at front
  unfold Part.taken
  cases player : s.array.playerJobs with
  | cons k rest =>
    rw [player] at front
    obtain ⟨rfl, -⟩ := List.cons.inj front
    simp
  | nil =>
    cases recorder : s.array.recorderJobs with
    | cons k rest =>
      rw [player, recorder] at front
      obtain ⟨rfl, -⟩ := List.cons.inj front
      simp [player]
    | nil =>
      rw [player, recorder] at front
      simp only [List.nil_append] at front
      simp [player, recorder, front]

theorem Part.chooseRounds_erases (idle : s.array.operation = none) (ended : s.array.scan = none)
    (empty : s.array.line = []) (n : Nat) :
    Part.chooseRounds (n + 1) s = { s with array := s.array.startErase } := by
  have free : ¬ (s.array.operation ≠ none ∨ s.array.scan ≠ none) := by simp [idle, ended]
  obtain ⟨player, recorder, lane⟩ := TakeArray.line_nil.1 empty
  rw [Part.chooseRounds, if_neg free]
  simp only [player, recorder, lane]

end

/-! ### What the player's reads do to the array -/

/-- Work that touches of the array the player's list and whether a read in progress is withdrawn. -/
structure TakeArray.Reads (t u : TakeArray) : Prop where
  same : u = { t with playerJobs := u.playerJobs, operation := u.operation } := by exact rfl
  operation : u.operation = t.operation ∨ ∃ slot k w v, t.operation = some (.job (.playerRead slot k) w) ∧
    u.operation = some (.job (.playerRead slot k) v) := by exact .inl rfl
  retires : (u.playerJobs.filter Job.isRetire).Sublist (t.playerJobs.filter Job.isRetire) := by
    exact .refl _

section
variable {t u v : TakeArray}

theorem TakeArray.Reads.refl (t : TakeArray) : t.Reads t := {}

theorem TakeArray.Reads.trans (h : t.Reads u) (k : u.Reads v) : t.Reads v where
  same := by rw [k.same, h.same]
  operation := by
    rcases k.operation with same | ⟨slot, page, w, x, was, is⟩
    · rw [same]; exact h.operation
    · refine .inr ⟨slot, page, ?_⟩
      rcases h.operation with same | ⟨slot', page', w', x', was', is'⟩
      · exact ⟨w, x, same ▸ was, is⟩
      · rw [is'] at was
        cases was
        exact ⟨w', x, was', is⟩
  retires := k.retires.trans h.retires

theorem TakeArray.Reads.none_iff (h : t.Reads u) : u.operation = none ↔ t.operation = none := by
  rcases h.operation with same | ⟨_, _, _, _, was, is⟩
  · rw [same]
  · simp [was, is]

theorem TakeArray.Reads.erase_iff (h : t.Reads u) (bay : Bay) :
    u.operation = some (.erase bay) ↔ t.operation = some (.erase bay) := by
  rcases h.operation with same | ⟨_, _, _, _, was, is⟩
  · rw [same]
  · simp [was, is]

theorem TakeArray.withdrawReads_reads (t : TakeArray) : t.Reads t.withdrawReads where
  operation := by
    unfold TakeArray.withdrawReads
    dsimp only
    split
    · next slot k w was => exact .inr ⟨slot, k, w, true, was, rfl⟩
    · exact .inl rfl
  retires := List.nil_sublist _

theorem TakeArray.addRead_reads (t : TakeArray) (slot : DirIx) (page : Nat) : t.Reads (t.addRead slot page) where
  retires := by simp [TakeArray.addRead, Job.isRetire]

end

/-- Work of the player that places or withdraws reads. -/
structure Part.Reads (s t : Part) : Prop where
  array : s.array.Reads t.array := by exact .refl _
  recorder : t.recorder = s.recorder := by exact rfl

section
variable {s t u : Part}

theorem Part.Reads.refl (s : Part) : s.Reads s := {}

theorem Part.Reads.trans (h : s.Reads t) (k : t.Reads u) : s.Reads u :=
  ⟨h.array.trans k.array, k.recorder.trans h.recorder⟩

theorem Part.addRead_reads (s : Part) (p : Player) (slot : DirIx) (page : Nat) :
    s.Reads { s with player := p, array := s.array.addRead slot page } where
  array := s.array.addRead_reads slot page

theorem Part.failCue_reads (s : Part) (status : CueStatus) : s.Reads (s.failCue status) where
  array := s.array.withdrawReads_reads

theorem Part.fetchRounds_reads (n : Nat) (s : Part) : s.Reads (Part.fetchRounds n s) := by
  induction n generalizing s with
  | zero => exact .refl _
  | succ n ih =>
    unfold Part.fetchRounds
    split
    · exact {}
    split
    · exact (s.failCue_reads _).trans (ih _)
    · exact s.addRead_reads _ _ _

theorem Part.failFetch_reads (s : Part) (status : CueStatus) : s.Reads (s.failCue status).enterFetching :=
  (s.failCue_reads status).trans (Part.fetchRounds_reads 17 _)

theorem Part.finishFetch_reads (s : Part) (st : Standing) : s.Reads (s.finishFetch st) := by
  unfold Part.finishFetch
  dsimp only
  split
  · exact {}
  · exact .trans (t := { s with freeCount := s.freeAfter st }) {} (Part.failFetch_reads _ _)

theorem Part.takeLatchedGo_array (s : Part) : s.takeLatchedGo.array = s.array := by
  unfold Part.takeLatchedGo
  split <;> rfl

theorem Part.prefetchArrived_array (s : Part) (page : Nat) (data : Option (List Byte)) :
    (s.prefetchArrived page data).array = s.array := by
  unfold Part.prefetchArrived
  rw [Part.takeLatchedGo_array]

theorem Part.takeLatchedGo_reads (s : Part) : s.Reads s.takeLatchedGo := by
  unfold Part.takeLatchedGo
  split <;> exact {}

theorem Part.prefetchArrived_reads (s : Part) (page : Nat) (data : Option (List Byte)) :
    s.Reads (s.prefetchArrived page data) :=
  .trans (t := { s with player := _ }) {} (Part.takeLatchedGo_reads _)

theorem Part.fetchArrived_reads (s : Part) (page : Nat) (data : Option (List Byte)) :
    s.Reads (s.fetchArrived page data) := by
  unfold Part.fetchArrived
  split
  · exact s.failFetch_reads _
  split
  · exact s.failFetch_reads _
  dsimp only
  split
  · exact .trans (t := { s with player := _ }) {} (Part.finishFetch_reads _ _)
  · exact s.addRead_reads _ _ _

theorem Part.playerReadDone_reads (s : Part) (page : Nat) (data : Option (List Byte)) :
    s.Reads (s.playerReadDone page data) := by
  unfold Part.playerReadDone
  split
  case h_1 => exact s.fetchArrived_reads page data
  case h_2 | h_3 => exact .refl _
  all_goals exact s.prefetchArrived_reads page data

theorem Part.jobUnavailable_reads (s : Part) (j : Job) : s.Reads (s.jobUnavailable j) := by
  cases j
  case playerRead => exact s.playerReadDone_reads _ _
  all_goals exact {}

end

/-! ### The rounds suffice -/

/-- The cues that the part owns. -/
def Player.owned (p : Player) : Nat := p.cues.toList.countP fun c => c.owner = .part

/-- How many rounds the reads that a failing fetch can still place may take: one for each cue of the part, and one
more where the cue at the pointer is not among them. -/
def Player.extra (p : Player) : Nat :=
  if p.state = .fetching then p.owned + (if p.current.owner = .part then 0 else 1) else 0

/-- The rounds that the controller's choice can still take. -/
def Part.rounds (s : Part) : Nat := s.array.waiting + s.player.extra

theorem Player.extra_le (p : Player) : p.extra ≤ 17 := by
  have owned : p.owned ≤ 16 := p.cues.size_toArray ▸ List.countP_le_length
  unfold Player.extra
  repeat' split
  all_goals omega

/-- A cue returned is one less of the part's, or was none of them. -/
theorem Player.returnCue_owned (p : Player) (status : CueStatus) :
    (p.returnCue status).owned + (if p.current.owner = .part then 1 else 0) = p.owned := by
  have member : p.pointer.val < p.cues.toList.length := by simp
  have at' : p.cues.toList[p.pointer.val] = p.current := by simp [Player.current]
  have pos := List.boole_getElem_le_countP (p := fun c : Cue => decide (c.owner = .part)) member
  unfold Player.owned Player.returnCue
  simp only [Vector.toList_set, List.countP_set member, at'] at pos ⊢
  simp only [decide_eq_true_eq, reduceCtorEq, if_false] at pos ⊢
  omega

section
variable {s : Part}

theorem Part.failCue_rounds (s : Part) (status : CueStatus) : (s.failCue status).array.waiting +
    (s.failCue status).player.owned + (if s.player.current.owner = .part then 1 else 0) ≤
      s.array.waiting + s.player.owned := by
  have owned := s.dropReads.player.returnCue_owned status
  have current : s.dropReads.player.current = s.player.current := rfl
  have same : s.dropReads.player.owned = s.player.owned := rfl
  have back : (s.failCue status).player.owned = (s.dropReads.player.returnCue status).owned := rfl
  have waiting : (s.failCue status).array.waiting ≤ s.array.waiting := by
    simp [Part.failCue, Part.dropReads, TakeArray.withdrawReads, TakeArray.waiting]
  rw [current, same] at owned
  omega

theorem Part.judgeTake_pointer {p : Player} (judged : s.judgeTake = .ok p) :
    p.cues = s.player.cues ∧ p.pointer = s.player.pointer := by
  unfold Part.judgeTake at judged
  dsimp only at judged
  split at judged
  · exact nomatch judged
  split at judged
  · exact nomatch judged
  split at judged
  · cases judged; exact ⟨rfl, rfl⟩
  · exact nomatch judged

theorem Part.fetchRounds_rounds (n : Nat) (s : Part) :
    (Part.fetchRounds n s).rounds ≤ s.array.waiting + s.player.owned + 1 := by
  induction n generalizing s with
  | zero =>
    unfold Part.fetchRounds Part.rounds Player.extra
    repeat' split
    all_goals omega
  | succ n ih =>
    unfold Part.fetchRounds
    split
    · simp only [Part.rounds, Player.extra, reduceCtorEq, if_false]
      omega
    · next owner =>
      have part : s.player.current.owner = .part := by
        cases was : s.player.current.owner
        · exact absurd was owner
        · rfl
      split
      · next status _ =>
        have less := s.failCue_rounds status
        have rest := ih (s.failCue status)
        omega
      · next p judged =>
        obtain ⟨cues, pointer⟩ := Part.judgeTake_pointer judged
        simp only [Part.rounds, Player.extra, Player.owned, Player.current, cues, pointer, TakeArray.waiting,
          TakeArray.addRead, List.length_append, List.length_singleton, if_true]
        rw [if_pos (by exact part)]
        omega

theorem Part.takeLatchedGo_extra (other : s.player.state ≠ .fetching) : s.takeLatchedGo.player.extra = 0 := by
  unfold Part.takeLatchedGo
  split
  · rfl
  · exact if_neg other

theorem Part.playerReadDone_rounds (s : Part) (page : Nat) : (s.playerReadDone page none).rounds ≤ s.rounds := by
  unfold Part.playerReadDone
  have joins (other : s.player.state ≠ .fetching) : (s.prefetchArrived page none).rounds ≤ s.rounds := by
    have extra : (s.prefetchArrived page none).player.extra = 0 := by
      unfold Part.prefetchArrived
      exact Part.takeLatchedGo_extra other
    rw [Part.rounds, Part.prefetchArrived_array, extra]
    exact Nat.le_add_right _ _
  split
  case h_1 fetching =>
    have less := s.failCue_rounds .badTake
    have rest : (s.fetchArrived page none).rounds ≤ _ := Part.fetchRounds_rounds 17 (s.failCue .badTake)
    have extra : s.player.extra = s.player.owned + (if s.player.current.owner = .part then 0 else 1) := if_pos fetching
    have after : s.rounds = s.array.waiting + s.player.extra := rfl
    by_cases owner : s.player.current.owner = .part
    · rw [if_pos owner] at less extra
      omega
    · rw [if_neg owner] at less extra
      omega
  case h_2 | h_3 => exact Nat.le_refl _
  all_goals
    next state => exact joins (by rw [state]; exact nofun)

theorem Part.startJob_rounds (s : Part) (j : Job) : (s.startJob j).rounds ≤ s.rounds := by
  unfold Part.startJob
  split
  · exact Nat.le_refl _
  · cases j
    case playerRead => exact s.playerReadDone_rounds _
    all_goals exact Nat.le_refl _

theorem Part.taken_rounds {j : Job} {more : List Job} (front : s.array.line = j :: more) :
    s.taken.rounds + 1 = s.rounds := by
  have line := s.taken_line
  rw [front, List.tail_cons] at line
  have after := s.taken.array.line_length
  have before := s.array.line_length
  rw [line] at after
  rw [front, List.length_cons] at before
  have player : s.taken.player = s.player := rfl
  unfold Part.rounds
  rw [player]
  omega

/-- R139: with rounds enough the choice does not depend on their number. -/
theorem Part.chooseRounds_enough {n m : Nat} (s : Part) (hn : s.rounds < n) (hm : s.rounds < m) :
    Part.chooseRounds n s = Part.chooseRounds m s := by
  induction n generalizing m s with
  | zero => exact absurd hn (Nat.not_lt_zero _)
  | succ n ih =>
    obtain _ | m := m
    · exact absurd hm (Nat.not_lt_zero _)
    by_cases free : s.array.operation = none ∧ s.array.scan = none
    · obtain ⟨idle, ended⟩ := free
      cases front : s.array.line with
      | nil => rw [Part.chooseRounds_erases idle ended front, Part.chooseRounds_erases idle ended front]
      | cons j more =>
        rw [Part.chooseRounds_takes idle ended front, Part.chooseRounds_takes idle ended front]
        have less := Part.taken_rounds front
        have start := s.taken.startJob_rounds j
        exact ih _ (by omega) (by omega)
    · have busy : s.array.operation ≠ none ∨ s.array.scan ≠ none := by
        simpa only [ne_eq, ← Classical.not_and_iff_not_or_not] using free
      rw [Part.chooseRounds_rests busy, Part.chooseRounds_rests busy]

theorem Part.rounds_lt (s : Part) : s.rounds < s.array.waiting + 20 := by
  have extra := s.player.extra_le
  unfold Part.rounds
  omega

theorem Part.choose_rests (busy : s.array.operation ≠ none ∨ s.array.scan ≠ none) : s.choose = s :=
  Part.chooseRounds_rests busy _

theorem Part.choose_takes {j : Job} {more : List Job} (idle : s.array.operation = none)
    (ended : s.array.scan = none) (front : s.array.line = j :: more) : s.choose = (s.taken.startJob j).choose := by
  have less := Part.taken_rounds front
  have start := s.taken.startJob_rounds j
  have enough := s.rounds_lt
  calc s.choose = Part.chooseRounds (s.array.waiting + 19) (s.taken.startJob j) :=
        Part.chooseRounds_takes idle ended front _
    _ = (s.taken.startJob j).choose :=
        Part.chooseRounds_enough _ (by omega) (Part.rounds_lt _)

theorem Part.choose_erases (idle : s.array.operation = none) (ended : s.array.scan = none)
    (empty : s.array.line = []) : s.choose = { s with array := s.array.startErase } :=
  Part.chooseRounds_erases idle ended empty _

end

end Sys2Proof.Machine
end

section
set_option Elab.async false
/-! SETTLED. The two laws of the take array, of its work and of the bays, over the controller's choice: requests and
bays only change place. -/

namespace Sys2Proof.Machine

/-! ### The law of the work -/

/-- The clauses of the law of the work that hold in the middle of a step too, before the controller has chosen. -/
structure Part.LooseLaw (s : Part) : Prop where
  scanning : s.array.scan ≠ none → s.array.operation = none
  oneErase : ∀ bay, s.array.operation = some (.erase bay) → s.array.suspended = none

section
variable {s t : Part}

theorem Part.WorkLaw.loose (law : s.WorkLaw) : s.LooseLaw := ⟨law.scanning, law.oneErase⟩

/-- A part with no operation in progress has the loose law. -/
theorem Part.LooseLaw.of_idle (idle : s.array.operation = none) : s.LooseLaw where
  scanning := fun _ => idle
  oneErase := fun bay erase => by rw [idle] at erase; exact nomatch erase

/-- A part with a read or a program in progress, and no scan, has the whole law. -/
theorem Part.WorkLaw.of_job {j : Job} {w : Bool} (job : s.array.operation = some (.job j w))
    (ended : s.array.scan = none) : s.WorkLaw where
  scanning := fun scan => absurd ended scan
  oneErase := fun bay erase => by rw [job] at erase; exact nomatch erase
  waits := fun _ none => absurd job (none j w)
  rests := fun _ idle => by rw [job] at idle; exact nomatch idle

/-- A part whose scan is running, with no operation in progress, has the whole law. -/
theorem Part.WorkLaw.of_scan (idle : s.array.operation = none) (scan : s.array.scan ≠ none) : s.WorkLaw where
  scanning := fun _ => idle
  oneErase := (Part.LooseLaw.of_idle idle).oneErase
  waits := fun ended => absurd ended scan
  rests := fun ended => absurd ended scan

theorem Part.startErase_workLaw (idle : s.array.operation = none) (ended : s.array.scan = none)
    (empty : s.array.line = []) : Part.WorkLaw { s with array := s.array.startErase } := by
  have lists := TakeArray.line_nil.1 empty
  unfold TakeArray.startErase
  split
  · exact {
      scanning := fun scan => absurd ended scan
      oneErase := fun _ _ => rfl
      waits := fun _ _ => lists
      rests := fun _ none => nomatch none }
  · next none =>
    split
    · exact {
        scanning := fun scan => absurd ended scan
        oneErase := fun _ _ => none
        waits := fun _ _ => lists
        rests := fun _ none => nomatch none }
    · next dirty =>
      exact {
        scanning := fun _ => idle
        oneErase := fun _ _ => none
        waits := fun _ _ => lists
        rests := fun _ _ => ⟨none, dirty⟩ }

theorem Part.startJob_operation (idle : s.array.operation = none) (j : Job) :
    (s.startJob j).array.scan = s.array.scan ∧
    ((s.startJob j).array.operation = some (.job j false) ∨ (s.startJob j).array.operation = none) := by
  unfold Part.startJob
  split
  · exact ⟨rfl, .inl rfl⟩
  · have reads := (s.jobUnavailable_reads j).array
    exact ⟨by rw [reads.same], .inr (reads.none_iff.2 idle)⟩

/-- R139: the choice from an Idle array leaves no work undone. -/
theorem Part.chooseRounds_workLaw {n : Nat} (enough : s.rounds < n) (idle : s.array.operation = none) :
    (Part.chooseRounds n s).WorkLaw := by
  induction n generalizing s with
  | zero => exact absurd enough (Nat.not_lt_zero _)
  | succ n ih =>
    by_cases ended : s.array.scan = none
    · cases front : s.array.line with
      | nil =>
        rw [Part.chooseRounds_erases idle ended front]
        exact Part.startErase_workLaw idle ended front
      | cons j more =>
        rw [Part.chooseRounds_takes idle ended front]
        have less := Part.taken_rounds front
        have start := s.taken.startJob_rounds j
        obtain ⟨scan, job | none⟩ := Part.startJob_operation (s := s.taken) idle j
        · rw [Part.chooseRounds_rests (.inl (by rw [job]; exact nofun))]
          exact .of_job job (scan.trans ended)
        · exact ih (by omega) none
    · rw [Part.chooseRounds_rests (.inr ended)]
      exact .of_scan idle ended

theorem Part.choose_workLaw (idle : s.array.operation = none) : s.choose.WorkLaw :=
  Part.chooseRounds_workLaw s.rounds_lt idle

theorem Part.WorkLaw.choose (law : s.WorkLaw) : s.choose.WorkLaw := by
  by_cases idle : s.array.operation = none
  · exact Part.choose_workLaw idle
  · rw [Part.choose_rests (.inl idle)]
    exact law

/-- R139, R140: a request that arrives is looked at, so that no work is left undone. -/
theorem Part.LooseLaw.kick (law : s.LooseLaw) : s.kick.WorkLaw := by
  unfold Part.kick
  split
  · next j w job =>
    refine .of_job job (Decidable.byContradiction fun scan => ?_)
    rw [law.scanning scan] at job
    exact nomatch job
  · next bay erase =>
    split
    · next none =>
      have lists := TakeArray.line_nil.1 (List.length_eq_zero_iff.1 (s.array.line_length.trans none))
      exact {
        scanning := law.scanning
        oneErase := law.oneErase
        waits := fun _ _ => lists
        rests := fun _ idle => by rw [erase] at idle; exact nomatch idle }
    · exact Part.choose_workLaw rfl
  · next idle => exact Part.choose_workLaw idle

end

/-! ### The law of the bays -/

/-- The retires asked for. -/
def TakeArray.retires (t : TakeArray) : List Job := t.work.filter Job.isRetire

/-- Requests and bays change place, but no bay leaves or enters a slot, no retire is added, and neither the scan nor
the recorder moves. -/
structure Part.Shunts (s t : Part) : Prop where
  slots : ∀ i : DirIx, t.array.directory[i].state = s.array.directory[i].state ∧
    t.array.directory[i].bays = s.array.directory[i].bays := by exact fun _ => ⟨rfl, rfl⟩
  clearing : t.array.clearing = s.array.clearing := by exact rfl
  scanComplete : t.array.scanComplete = s.array.scanComplete := by exact rfl
  scan : t.array.scan = s.array.scan := by exact rfl
  state : t.recorder.state = s.recorder.state := by exact rfl
  slot : t.recorder.slot = s.recorder.slot := by exact rfl
  reserved : t.recorder.reserved = s.recorder.reserved := by exact rfl
  places : ∀ bay, t.array.places.count bay = s.array.places.count bay := by exact fun _ => rfl
  oneErase : (∀ bay, s.array.operation = some (.erase bay) → s.array.suspended = none) →
    ∀ bay, t.array.operation = some (.erase bay) → t.array.suspended = none := by exact fun h => h
  scanning : s.array.scan ≠ none → s.array.operation = none → s.array.suspended = none →
    t.array.operation = none ∧ t.array.suspended = none := by exact fun _ h k => ⟨h, k⟩
  retires : t.array.retires.Sublist s.array.retires := by exact .refl _

section
variable {s t u : Part}

theorem Part.Shunts.refl (s : Part) : s.Shunts s := {}

theorem Part.Shunts.trans (h : s.Shunts t) (k : t.Shunts u) : s.Shunts u where
  slots := fun i => ⟨(k.slots i).1.trans (h.slots i).1, (k.slots i).2.trans (h.slots i).2⟩
  clearing := k.clearing.trans h.clearing
  scanComplete := k.scanComplete.trans h.scanComplete
  scan := k.scan.trans h.scan
  state := k.state.trans h.state
  slot := k.slot.trans h.slot
  reserved := k.reserved.trans h.reserved
  places := fun bay => (k.places bay).trans (h.places bay)
  oneErase := k.oneErase ∘ h.oneErase
  scanning := fun scan idle none => by
    obtain ⟨idle', none'⟩ := h.scanning scan idle none
    exact k.scanning (h.scan ▸ scan) idle' none'
  retires := k.retires.trans h.retires

theorem TakeArray.mem_retires {t : TakeArray} {j : Job} : j ∈ t.retires ↔ j ∈ t.work ∧ j.isRetire = true :=
  List.mem_filter

theorem TakeArray.retires_slot (t : TakeArray) (i : DirIx) :
    t.work.filter (fun j => j.isRetire && decide (j.slot = i)) = t.retires.filter fun j => decide (j.slot = i) := by
  rw [TakeArray.retires, List.filter_filter]
  simp only [Bool.and_comm]

/-- The bays of the slots. -/
def TakeArray.held (t : TakeArray) : List Bay := (List.finRange 64).flatMap fun i : DirIx => t.directory[i].bays

theorem TakeArray.held_congr {t u : TakeArray} (bays : ∀ i : DirIx, u.directory[i].bays = t.directory[i].bays) :
    u.held = t.held := by
  unfold TakeArray.held
  congr 1
  exact funext bays

theorem TakeArray.ScanApart.congr {t u : TakeArray} {sc : Scan} (apart : t.ScanApart sc)
    (bays : ∀ i : DirIx, u.directory[i].bays = t.directory[i].bays) : u.ScanApart sc := by
  have held := TakeArray.held_congr bays
  unfold TakeArray.held at held
  unfold TakeArray.ScanApart at apart ⊢
  split
  · next phase => rwa [phase] at apart
  · next phase =>
    rw [phase] at apart
    rwa [held]

/-- The clauses on the retires do not look past the state and the bays of the slots. -/
theorem Part.Shunts.bays (h : s.Shunts t) (law : s.BayLaw) : t.BayLaw where
  once := fun complete bay => (h.places bay).trans (law.once (h.scanComplete ▸ complete) bay)
  oneErase := h.oneErase law.oneErase
  empty := fun i empty => by
    rw [(h.slots i).1] at empty
    rw [(h.slots i).2, law.empty i empty]
  scanning := fun sc scan => by
    rw [h.scan] at scan
    obtain ⟨complete, idle, none, retires, apart⟩ := law.scanning sc scan
    obtain ⟨idle', none'⟩ := h.scanning (by rw [scan]; exact nofun) idle none
    refine ⟨h.scanComplete.trans complete, idle', none', fun j work => ?_, apart.congr fun i => (h.slots i).2⟩
    refine Bool.eq_false_iff.2 fun retire => ?_
    have before := h.retires.subset (TakeArray.mem_retires.2 ⟨work, retire⟩)
    obtain ⟨was, retire⟩ := TakeArray.mem_retires.1 before
    exact absurd retire (Bool.eq_false_iff.1 (retires j was))
  retire := fun i bay work => by
    have now : Job.retire i bay ∈ t.array.retires := TakeArray.mem_retires.2 ⟨work, rfl⟩
    obtain ⟨clearing, state, member, one⟩ := law.retire i bay (TakeArray.mem_retires.1 (h.retires.subset now)).1
    refine ⟨h.clearing.trans clearing, (h.slots i).1.trans state, (h.slots i).2 ▸ member, ?_⟩
    rw [TakeArray.retires_slot] at one ⊢
    refine Nat.le_antisymm (one ▸ (h.retires.filter _).length_le) (List.length_pos_of_mem (List.mem_filter.2 ⟨now, ?_⟩))
    exact decide_eq_true rfl
  clear := fun i bay work => by
    have now : Job.clearRetire i bay ∈ t.array.retires := TakeArray.mem_retires.2 ⟨work, rfl⟩
    obtain ⟨clearing, one⟩ := law.clear i bay (TakeArray.mem_retires.1 (h.retires.subset now)).1
    exact ⟨h.clearing.trans clearing, Nat.le_antisymm (one ▸ h.retires.length_le) (List.length_pos_of_mem now)⟩
  recording := fun busy => by
    rw [h.state] at busy
    obtain ⟨complete, i, slot, state⟩ := law.recording busy
    exact ⟨h.scanComplete.trans complete, i, h.slot.trans slot, (h.slots i).1.trans state⟩
  reserved := fun bay reserved => by
    rw [h.reserved] at reserved
    obtain ⟨state, member⟩ := law.reserved bay reserved
    refine ⟨h.state ▸ state, fun i slot => ?_⟩
    rw [(h.slots i).2]
    exact member i (h.slot.symm.trans slot)

/-! ### The controller changes places only -/

/-- The request in progress. -/
def TakeArray.current (t : TakeArray) : List Job :=
  match t.operation with
  | some (.job j _) => [j]
  | _ => []

/-- The bay under the erase in progress. -/
def TakeArray.erasing (t : TakeArray) : List Bay :=
  match t.operation with
  | some (.erase bay) => [bay]
  | _ => []

theorem TakeArray.work_eq (t : TakeArray) : t.work = t.current ++ t.line := by
  unfold TakeArray.work TakeArray.line TakeArray.current
  simp only [List.append_assoc] <;> rfl

theorem TakeArray.retires_eq (t : TakeArray) :
    t.retires = t.current.filter Job.isRetire ++ t.line.filter Job.isRetire := by
  rw [TakeArray.retires, TakeArray.work_eq, List.filter_append]

theorem TakeArray.places_eq (t : TakeArray) :
    t.places = t.erased ++ t.dirty ++ t.held ++ t.erasing ++ t.suspended.toList := rfl

/-- The player's reads are no retires, and no erase is begun or ended by them. -/
theorem Part.Reads.shunts (reads : s.Reads t) : s.Shunts t := by
  obtain ⟨h, recorder⟩ := reads
  have erasing : t.array.erasing = s.array.erasing := by
    unfold TakeArray.erasing
    rcases h.operation with same | ⟨_, _, _, _, was, is⟩
    · rw [same]
    · rw [was, is]
  have current : t.array.current.filter Job.isRetire = s.array.current.filter Job.isRetire := by
    unfold TakeArray.current
    rcases h.operation with same | ⟨_, _, _, _, was, is⟩
    · rw [same]
    · rw [was, is]
  have suspended : t.array.suspended = s.array.suspended := by rw [h.same]
  have directory : t.array.directory = s.array.directory := by rw [h.same]
  exact {
    slots := fun i => by rw [directory]; exact ⟨rfl, rfl⟩
    clearing := by rw [h.same]
    scanComplete := by rw [h.same]
    scan := by rw [h.same]
    state := by rw [recorder]
    slot := by rw [recorder]
    reserved := by rw [recorder]
    places := fun bay => by
      rw [TakeArray.places_eq, TakeArray.places_eq, erasing, suspended,
        TakeArray.held_congr (t := s.array) (fun i => by rw [directory])]
      rw [h.same]
    oneErase := fun one bay erase => suspended.trans (one bay ((h.erase_iff bay).1 erase))
    scanning := fun _ idle none => ⟨h.none_iff.2 idle, suspended.trans none⟩
    retires := by
      rw [TakeArray.retires_eq, TakeArray.retires_eq, current]
      refine List.Sublist.append (.refl _) ?_
      unfold TakeArray.line
      simp only [List.filter_append]
      rw [show t.array.recorderJobs = s.array.recorderJobs by rw [h.same],
        show t.array.laneJobs = s.array.laneJobs by rw [h.same]]
      exact (h.retires.append (.refl _)).append (.refl _) }

theorem Part.Reads.bays (reads : s.Reads t) (law : s.BayLaw) : t.BayLaw := reads.shunts.bays law

theorem Part.Reads.loose (reads : s.Reads t) (law : s.LooseLaw) : t.LooseLaw where
  scanning := fun scan => by
    rw [reads.array.same] at scan
    exact reads.array.none_iff.2 (law.scanning scan)
  oneErase := fun bay erase => by
    rw [reads.array.same]
    exact law.oneErase bay ((reads.array.erase_iff bay).1 erase)

/-- Reads withdrawn leave no work undone. -/
theorem Part.WorkLaw.withdrawn (law : s.WorkLaw) (array : t.array = s.array.withdrawReads) : t.WorkLaw := by
  have reads := s.array.withdrawReads_reads
  rw [← array] at reads
  have loose : t.LooseLaw := {
    scanning := fun scan => by
      rw [reads.same] at scan
      exact reads.none_iff.2 (law.scanning scan)
    oneErase := fun bay erase => by
      rw [reads.same]
      exact law.oneErase bay ((reads.erase_iff bay).1 erase) }
  have empty : t.array.playerJobs = [] := by rw [array]; rfl
  exact {
    scanning := loose.scanning
    oneErase := loose.oneErase
    waits := fun ended free => by
      rw [reads.same] at ended
      have free : ∀ j w, s.array.operation ≠ some (.job j w) := fun j w job => by
        rcases reads.operation with same | ⟨slot, k, _, v, -, is⟩
        · exact free j w (same.trans job)
        · exact free _ v is
      have lists := (law.waits ended free).2
      rw [reads.same]
      exact ⟨empty, lists⟩
    rests := fun ended idle => by
      rw [reads.same] at ended ⊢
      exact law.rests ended (reads.none_iff.1 idle) }

theorem Part.startErase_shunts (idle : s.array.operation = none) (ended : s.array.scan = none) :
    s.Shunts { s with array := s.array.startErase } := by
  have apart (u : TakeArray) (same : u = { s.array with
      operation := u.operation, suspended := u.suspended, dirty := u.dirty })
      (current : u.current = []) (none : u.suspended = none)
      (bays : (u.dirty ++ u.erasing).Perm (s.array.dirty ++ s.array.suspended.toList)) :
      s.Shunts { s with array := u } := {
    slots := fun i => by rw [same]; exact ⟨rfl, rfl⟩
    clearing := by rw [same]
    scanComplete := by rw [same]
    scan := by rw [same]
    places := fun bay => by
      have none' : s.array.erasing = [] := by unfold TakeArray.erasing; rw [idle]
      have held : u.held = s.array.held := by rw [same]; rfl
      have erased : u.erased = s.array.erased := by rw [same]
      have count := bays.count_eq bay
      simp only [TakeArray.places_eq, held, erased, none', none, List.count_append, List.count_nil, Option.toList_none]
        at count ⊢
      omega
    oneErase := fun _ _ _ => none
    scanning := fun scan => absurd ended scan
    retires := by
      have none' : s.array.current = [] := by unfold TakeArray.current; rw [idle]
      have line : u.line = s.array.line := by rw [same]; rfl
      have retires : u.retires = s.array.retires := by
        rw [TakeArray.retires_eq, TakeArray.retires_eq, current, none', line]
      exact retires ▸ List.Sublist.refl _ }
  unfold TakeArray.startErase
  split
  · next bay suspended => exact apart _ rfl rfl rfl (by simp [TakeArray.erasing, suspended])
  · next none =>
    split
    · next bay rest dirty =>
      refine apart _ (by rw [none]) rfl none ?_
      rw [none, dirty]
      simp [TakeArray.erasing]
    · exact .refl s

theorem Part.taken_shunts (s : Part) : s.Shunts s.taken where
  retires := by
    have current : s.taken.array.current = s.array.current := rfl
    rw [TakeArray.retires_eq, TakeArray.retires_eq, Part.taken_line, current]
    exact (List.Sublist.refl _).append ((List.tail_sublist _).filter _)

theorem Part.startJob_shunts {j : Job} {more : List Job} (idle : s.array.operation = none)
    (ended : s.array.scan = none) (front : s.array.line = j :: more) : s.Shunts (s.taken.startJob j) := by
  unfold Part.startJob
  split
  · exact {
      places := fun bay => by
        simp [TakeArray.places, Part.taken, idle]
      oneErase := fun _ bay erase => nomatch erase
      scanning := fun scan => absurd ended scan
      retires := by
        have none : s.array.current = [] := by unfold TakeArray.current; rw [idle]
        have line : TakeArray.line { s.taken.array with operation := some (.job j false) } = more := by
          have tail := s.taken_line
          rw [front] at tail
          exact tail
        rw [TakeArray.retires_eq, TakeArray.retires_eq, none, line, front]
        exact (List.filter_append (p := Job.isRetire) [j] more).symm ▸ .refl _ }
  · exact s.taken_shunts.trans ((s.taken.jobUnavailable_reads j).shunts)

theorem Part.chooseRounds_shunts (n : Nat) (s : Part) : s.Shunts (Part.chooseRounds n s) := by
  induction n generalizing s with
  | zero => exact .refl s
  | succ n ih =>
    by_cases free : s.array.operation = none ∧ s.array.scan = none
    · obtain ⟨idle, ended⟩ := free
      cases front : s.array.line with
      | nil =>
        rw [Part.chooseRounds_erases idle ended front]
        exact Part.startErase_shunts idle ended
      | cons j more =>
        rw [Part.chooseRounds_takes idle ended front]
        exact (Part.startJob_shunts idle ended front).trans (ih _)
    · rw [Part.chooseRounds_rests (by simpa only [ne_eq, ← Classical.not_and_iff_not_or_not] using free)]
      exact .refl s

/-- An erase in progress that is suspended. -/
theorem Part.suspend_shunts {bay : Bay} (erase : s.array.operation = some (.erase bay)) (rest : s.array.suspended = none) :
    s.Shunts { s with array := { s.array with operation := none, suspended := some bay } } where
  places := fun b => by simp [TakeArray.places, erase, rest]
  oneErase := fun _ _ erase => nomatch erase
  scanning := fun _ idle => by rw [erase] at idle; exact nomatch idle
  retires := by
    have retires : TakeArray.retires { s.array with operation := none, suspended := some bay } = s.array.retires := by
      unfold TakeArray.retires TakeArray.work
      rw [erase]
    exact retires ▸ List.Sublist.refl _

theorem Part.BayLaw.choose (law : s.BayLaw) : s.choose.BayLaw := (Part.chooseRounds_shunts _ s).bays law

theorem Part.BayLaw.kick (law : s.BayLaw) : s.kick.BayLaw := by
  unfold Part.kick
  split
  · exact law
  · next bay erase =>
    split
    · exact law
    · exact Part.BayLaw.choose ((Part.suspend_shunts erase (law.oneErase bay erase)).bays law)
  · exact law.choose

end

end Sys2Proof.Machine
end

section
set_option Elab.async false
/-! SETTLED. The law of the bays over the moves of bays between the erased queue and one slot, and over the recorder's
use of them. -/

namespace Sys2Proof.Machine

/-! ### Bays counted -/

theorem le_sum_map_of_mem {α : Type} {l : List α} {x : α} (f : α → Nat) (member : x ∈ l) : f x ≤ (l.map f).sum := by
  induction l with
  | nil => exact absurd member List.not_mem_nil
  | cons a l ih =>
    rw [List.map_cons, List.sum_cons]
    rcases List.mem_cons.1 member with rfl | later
    · exact Nat.le_add_right _ _
    · exact Nat.le_trans (ih later) (Nat.le_add_left _ _)

/-- Two sums over a list that differ at one place. -/
theorem sum_map_exchange {α : Type} {l : List α} {x : α} {f g : α → Nat} (nodup : l.Nodup) (member : x ∈ l)
    (others : ∀ y, y ≠ x → f y = g y) : (l.map f).sum + g x = (l.map g).sum + f x := by
  induction l with
  | nil => exact absurd member List.not_mem_nil
  | cons a l ih =>
    obtain ⟨fresh, rest⟩ := List.nodup_cons.1 nodup
    simp only [List.map_cons, List.sum_cons]
    rcases List.mem_cons.1 member with rfl | later
    · have same : l.map f = l.map g := List.map_congr_left fun y inL => others y fun eq => fresh (eq ▸ inL)
      rw [same]
      omega
    · have same := others a fun eq => fresh (eq ▸ later)
      have step := ih rest later
      omega

theorem sum_map_add {α : Type} (l : List α) (f g : α → Nat) :
    (l.map f).sum + (l.map g).sum = (l.map fun x => f x + g x).sum := by
  induction l with
  | nil => rfl
  | cons a l ih =>
    simp only [List.map_cons, List.sum_cons]
    omega

theorem TakeArray.held_count (t : TakeArray) (b : Bay) :
    t.held.count b = ((List.finRange 64).map fun i : DirIx => t.directory[i].bays.count b).sum := by
  unfold TakeArray.held
  exact List.count_flatMap

/-- Two directories that differ in one slot. -/
theorem TakeArray.held_count_slot {t u : TakeArray} {i : DirIx}
    (others : ∀ j : DirIx, j ≠ i → u.directory[j].bays = t.directory[j].bays) (b : Bay) :
    u.held.count b + t.directory[i].bays.count b = t.held.count b + u.directory[i].bays.count b := by
  rw [TakeArray.held_count, TakeArray.held_count]
  exact sum_map_exchange (f := fun j : DirIx => u.directory[j].bays.count b)
    (g := fun j : DirIx => t.directory[j].bays.count b) (List.nodup_finRange 64) (List.mem_finRange i)
    fun j other => congrArg (List.count b) (others j other)

/-- A bay of a slot stands there once. -/
theorem Part.BayLaw.slot_count {s : Part} (law : s.BayLaw) (complete : s.array.scanComplete = true) {i : DirIx}
    {b : Bay} (member : b ∈ s.array.directory[i].bays) : s.array.directory[i].bays.count b = 1 := by
  have once := law.once complete b
  have pos := List.count_pos_iff.2 member
  have part : s.array.directory[i].bays.count b ≤ s.array.held.count b := by
    rw [TakeArray.held_count]
    exact le_sum_map_of_mem (fun j : DirIx => s.array.directory[j].bays.count b) (List.mem_finRange i)
  simp only [TakeArray.places_eq, List.count_append] at once
  omega

/-- A list without one of its bays. -/
theorem count_without (l : List Bay) (bay b : Bay) :
    (l.filter fun x => decide (x ≠ bay)).count b = if b = bay then 0 else l.count b := by
  split
  · next eq => exact List.count_eq_zero.2 fun member => by simp [eq] at member
  · next ne => exact List.count_filter (by simpa using ne)

/-! ### Moves between the erased queue and a slot -/

/-- Bays move between the erased queue and slot i, which no retire is of, after the scan. -/
structure Part.Moves (s t : Part) (i : DirIx) : Prop where
  complete : s.array.scanComplete = true
  plain : s.array.directory[i].state ≠ .retiring
  others : ∀ j : DirIx, j ≠ i → t.array.directory[j].state = s.array.directory[j].state ∧
    t.array.directory[j].bays = s.array.directory[j].bays
  operation : t.array.operation = s.array.operation := by exact rfl
  suspended : t.array.suspended = s.array.suspended := by exact rfl
  dirty : t.array.dirty = s.array.dirty := by exact rfl
  line : t.array.line = s.array.line := by exact rfl
  clearing : t.array.clearing = s.array.clearing := by exact rfl
  scanComplete : t.array.scanComplete = s.array.scanComplete := by exact rfl
  scan : t.array.scan = s.array.scan := by exact rfl
  bays : ∀ b, t.array.erased.count b + t.array.directory[i].bays.count b =
    s.array.erased.count b + s.array.directory[i].bays.count b
  empty : t.array.directory[i].state = .empty → t.array.directory[i].bays = []
  recording : t.recorder.state ≠ .idle →
    ∃ k, t.recorder.slot = some k ∧ t.array.directory[k].state = .recording
  reserved : ∀ bay, t.recorder.reserved = some bay →
    (t.recorder.state = .recording ∨ t.recorder.state = .stalled) ∧
    ∀ k, t.recorder.slot = some k → bay ∈ t.array.directory[k].bays

section
variable {s t : Part} {i : DirIx}

theorem Part.BayLaw.ended (law : s.BayLaw) (complete : s.array.scanComplete = true) : s.array.scan = none := by
  cases scan : s.array.scan with
  | none => rfl
  | some sc => exact nomatch (law.scanning sc scan).1.symm.trans complete

theorem Part.Moves.work (h : s.Moves t i) : t.array.work = s.array.work := by
  rw [TakeArray.work_eq, TakeArray.work_eq, h.line]
  unfold TakeArray.current
  rw [h.operation]

theorem Part.Moves.bayLaw (h : s.Moves t i) (law : s.BayLaw) : t.BayLaw where
  once := fun _ b => by
    have once := law.once h.complete b
    have held := TakeArray.held_count_slot (fun j ne => (h.others j ne).2) b
    have move := h.bays b
    have erasing : t.array.erasing = s.array.erasing := by
      unfold TakeArray.erasing
      rw [h.operation]
    simp only [TakeArray.places_eq, List.count_append] at once ⊢
    rw [h.dirty, erasing, h.suspended]
    omega
  oneErase := fun bay erase => by
    rw [h.operation] at erase
    rw [h.suspended, law.oneErase bay erase]
  empty := fun j empty => by
    by_cases eq : j = i
    · subst eq
      exact h.empty empty
    · rw [(h.others j eq).1] at empty
      rw [(h.others j eq).2, law.empty j empty]
  scanning := fun sc scan => by
    rw [h.scan, law.ended h.complete] at scan
    exact nomatch scan
  retire := fun j bay work => by
    rw [h.work] at work ⊢
    obtain ⟨clearing, state, member, one⟩ := law.retire j bay work
    have ne : j ≠ i := fun eq => h.plain (eq ▸ state)
    exact ⟨h.clearing.trans clearing, (h.others j ne).1.trans state, (h.others j ne).2 ▸ member, one⟩
  clear := fun j bay work => by
    rw [h.work] at work ⊢
    obtain ⟨clearing, one⟩ := law.clear j bay work
    exact ⟨h.clearing.trans clearing, one⟩
  recording := fun busy => ⟨h.scanComplete.trans h.complete, h.recording busy⟩
  reserved := h.reserved

/-- The law looks at the recorder in its last two clauses only. -/
theorem Part.BayLaw.withRecorder (law : s.BayLaw) (r : Recorder)
    (recording : r.state ≠ .idle → s.array.scanComplete = true ∧
      ∃ k, r.slot = some k ∧ s.array.directory[k].state = .recording)
    (reserved : ∀ bay, r.reserved = some bay → (r.state = .recording ∨ r.state = .stalled) ∧
      ∀ k, r.slot = some k → bay ∈ s.array.directory[k].bays) : Part.BayLaw { s with recorder := r } where
  once := law.once
  oneErase := law.oneErase
  empty := law.empty
  scanning := law.scanning
  retire := law.retire
  clear := law.clear
  recording := recording
  reserved := reserved

/-! ### The slots -/

theorem TakeArray.setSlot_same (t : TakeArray) (i : DirIx) (d : DirectorySlot) :
    (t.setSlot i d).directory[i] = d := by
  simp [TakeArray.setSlot]

theorem TakeArray.setSlot_other (t : TakeArray) {i j : DirIx} (d : DirectorySlot) (ne : j ≠ i) :
    (t.setSlot i d).directory[j] = t.directory[j] := by
  have ne' : i.val ≠ j.val := fun eq => ne (Fin.ext eq.symm)
  simp [TakeArray.setSlot, Vector.getElem_set_ne _ _ ne']

/-- A slot changed in what the law does not look at. -/
theorem Part.setSlot_shunts (s : Part) (i : DirIx) (d : DirectorySlot)
    (state : d.state = s.array.directory[i].state) (bays : d.bays = s.array.directory[i].bays) :
    s.Shunts { s with array := s.array.setSlot i d } := by
  have slots : ∀ j : DirIx, (s.array.setSlot i d).directory[j].state = s.array.directory[j].state ∧
      (s.array.setSlot i d).directory[j].bays = s.array.directory[j].bays := fun j => by
    by_cases eq : j = i
    · rw [eq, TakeArray.setSlot_same]
      exact ⟨state, bays⟩
    · rw [TakeArray.setSlot_other _ _ eq]
      exact ⟨rfl, rfl⟩
  exact {
    slots
    places := fun b => by
      rw [TakeArray.places_eq, TakeArray.places_eq, TakeArray.held_congr fun j => (slots j).2]
      rfl }

/-- The slot of the recording changed in what the law does not look at. -/
theorem Part.onSlot_shunts (s : Part) (f : DirectorySlot → DirectorySlot)
    (state : ∀ d, (f d).state = d.state) (bays : ∀ d, (f d).bays = d.bays) : s.Shunts (s.onSlot f) := by
  unfold Part.onSlot
  split
  · exact .refl s
  · exact s.setSlot_shunts _ _ (state _) (bays _)

/-! ### The recorder -/

/-- A recording is closed, and its reserved bay goes back to the erased queue. -/
theorem Part.BayLaw.closing (law : s.BayLaw) (busy : s.recorder.state ≠ .idle) (r : Recorder)
    (slot : r.slot = s.recorder.slot) (reserved : r.reserved = s.recorder.reserved) :
    Part.BayLaw (Part.returnReserved { s with recorder := r }) := by
  obtain ⟨complete, i, named, recording⟩ := law.recording busy
  unfold Part.returnReserved
  rw [slot, named, reserved]
  cases kept : s.recorder.reserved with
  | none =>
    exact law.withRecorder r (fun _ => ⟨complete, i, slot.trans named, recording⟩)
      fun bay some => by rw [reserved, kept] at some; exact nomatch some
  | some bay =>
    have member := (law.reserved bay kept).2 i named
    have one := law.slot_count complete member
    refine Part.Moves.bayLaw (s := s) (i := i) ?_ law
    exact {
      complete
      plain := by rw [recording]; exact nofun
      others := fun j ne => by
        rw [show (TakeArray.directory _)[j] = _ from TakeArray.setSlot_other s.array _ ne]
        exact ⟨rfl, rfl⟩
      bays := fun b => by
        simp only [List.count_append, TakeArray.setSlot_same, count_without]
        simp only [TakeArray.setSlot, List.count_singleton]
        by_cases eq : b = bay
        · subst eq
          simpa using one.symm
        · simp [eq, Ne.symm eq]
      empty := fun empty => by
        simp only [TakeArray.setSlot_same, recording, reduceCtorEq] at empty
      recording := fun _ => ⟨i, slot.trans named, by simp only [TakeArray.setSlot_same, recording]⟩
      reserved := fun _ none => nomatch none }

/-- An Armed recorder is closed: its bay goes back and its slot is Empty. -/
theorem Part.BayLaw.closeArmed (law : s.BayLaw) (armed : s.recorder.state = .armed) : s.closeArmed.BayLaw := by
  obtain ⟨complete, i, named, recording⟩ := law.recording (by rw [armed]; exact nofun)
  have kept (bay : Bay) : s.recorder.reserved ≠ some bay := fun some => by
    have state := (law.reserved bay some).1
    simp [armed] at state
  unfold Part.closeArmed
  rw [named]
  refine Part.Moves.bayLaw (s := s) (i := i) ?_ law
  exact {
    complete
    plain := by rw [recording]; exact nofun
    others := fun j ne => by
      rw [show (TakeArray.directory _)[j] = _ from TakeArray.setSlot_other s.array _ ne]
      exact ⟨rfl, rfl⟩
    bays := fun b => by
      simp only [List.count_append, TakeArray.setSlot_same]
      simp [TakeArray.setSlot, DirectorySlot.reset]
    empty := fun _ => by
      simp only [TakeArray.setSlot_same]
      rfl
    recording := fun busy => absurd rfl busy
    reserved := fun bay some => absurd some (kept bay) }

/-- The take of a Closing recorder is closed, and the recorder is Idle. -/
theorem Part.BayLaw.finishClosing (law : s.BayLaw) : s.finishClosing.BayLaw := by
  unfold Part.finishClosing
  split
  case isFalse => exact law
  case isTrue last =>
    obtain ⟨closing, -⟩ := last
    obtain ⟨complete, i, named, recording⟩ := law.recording (by rw [closing]; exact nofun)
    have kept (bay : Bay) : s.recorder.reserved ≠ some bay := fun some => by
      have state := (law.reserved bay some).1
      simp [closing] at state
    unfold Part.onSlot
    rw [named]
    refine Part.Moves.bayLaw (s := s) (i := i) ?_ law
    exact {
      complete
      plain := by rw [recording]; exact nofun
      others := fun j ne => by
        rw [show (TakeArray.directory _)[j] = _ from TakeArray.setSlot_other s.array _ ne]
        exact ⟨rfl, rfl⟩
      bays := fun b => by
        simp only [TakeArray.setSlot_same]
        rfl
      empty := fun empty => by simp only [TakeArray.setSlot_same, reduceCtorEq] at empty
      recording := fun busy => absurd rfl busy
      reserved := fun bay some => absurd some (kept bay) }

theorem TakeArray.claim_spec {t u : TakeArray} {i : DirIx} {bay : Bay} (h : t.claim i = some (bay, u)) :
    t.erased = bay :: u.erased ∧ u.directory[i] = { t.directory[i] with bays := t.directory[i].bays ++ [bay] } ∧
    (∀ j : DirIx, j ≠ i → u.directory[j] = t.directory[j]) ∧
    u = { t with erased := u.erased, directory := u.directory } := by
  unfold TakeArray.claim at h
  split at h
  · cases h
  · rename_i b rest erased
    cases h
    exact ⟨erased, TakeArray.setSlot_same t i _, fun j ne => TakeArray.setSlot_other t _ ne, rfl⟩

/-- The head of the erased queue becomes the reserved bay of the recording. -/
theorem Part.BayLaw.reserveBay (law : s.BayLaw) (busy : s.recorder.state = .recording ∨ s.recorder.state = .stalled)
    (named : s.recorder.slot = some i) : (s.reserveBay i).BayLaw := by
  obtain ⟨complete, k, named', recording⟩ := law.recording (by rcases busy with h | h <;> rw [h] <;> exact nofun)
  obtain rfl : i = k := Option.some.inj (named.symm.trans named')
  unfold Part.reserveBay
  split
  · exact law
  · next bay t claimed =>
    obtain ⟨erased, here, there, same⟩ := TakeArray.claim_spec claimed
    refine Part.Moves.bayLaw (s := s) (i := i) ?_ law
    exact {
      complete
      plain := by rw [recording]; exact nofun
      others := fun j ne => by rw [there j ne]; exact ⟨rfl, rfl⟩
      operation := by rw [same]
      suspended := by rw [same]
      dirty := by rw [same]
      line := by rw [same]; rfl
      clearing := by rw [same]
      scanComplete := by rw [same]
      scan := by rw [same]
      bays := fun b => by
        simp only [here, erased, List.count_append, List.count_cons, List.count_nil]
        omega
      empty := fun empty => by
        simp only [here, recording, reduceCtorEq] at empty
      recording := fun _ => ⟨i, named, by simp only [here, recording]⟩
      reserved := fun b some => by
        obtain rfl := Option.some.inj some
        refine ⟨busy, fun j slot => ?_⟩
        obtain rfl : i = j := Option.some.inj (named.symm.trans slot)
        simp only [here]
        exact List.mem_append_right _ (List.mem_singleton_self _) }

end

end Sys2Proof.Machine
end

section
set_option Elab.async false
/-! SETTLED. The law of the bays over the start-up scan (R142 to R144). -/

namespace Sys2Proof.Machine

/-! ### The headers -/

theorem Scan.header_apart {sc : Scan} {n : Nat} (lt : n < 512) (page : List Byte)
    (nodup : (sc.erased ++ sc.owned.map (·.bay)).Nodup) (below : ∀ b ∈ sc.erased ++ sc.owned.map (·.bay), b.val < n) :
    let sc1 := sc.header ⟨n, lt⟩ page
    (sc1.erased ++ sc1.owned.map (·.bay)).Nodup ∧ ∀ b ∈ sc1.erased ++ sc1.owned.map (·.bay), b.val < n + 1 := by
  have fresh : (⟨n, lt⟩ : Bay) ∉ sc.erased ++ sc.owned.map (·.bay) := fun member => Nat.lt_irrefl _ (below _ member)
  have joined (l : List Bay) (perm : l.Perm (⟨n, lt⟩ :: (sc.erased ++ sc.owned.map (·.bay)))) :
      l.Nodup ∧ ∀ b ∈ l, b.val < n + 1 := by
    refine ⟨perm.nodup_iff.2 (List.nodup_cons.2 ⟨fresh, nodup⟩), fun b member => ?_⟩
    rcases List.mem_cons.1 (perm.mem_iff.1 member) with rfl | old
    · exact Nat.lt_succ_self n
    · exact Nat.lt_succ_of_lt (below b old)
  unfold Scan.header
  dsimp only
  split
  · exact ⟨nodup, fun b member => Nat.lt_succ_of_lt (below b member)⟩
  · refine joined _ ?_
    rw [List.append_assoc]
    exact List.perm_middle
  · refine joined _ ?_
    simp only [List.map_append, List.map_cons, List.map_nil, ← List.append_assoc]
    exact List.perm_append_singleton _ _

/-! ### The takes that the headers give -/

/-- A bay that gives the take of its serial to a slot. -/
def Leads (owned : List ScannedBay) (i : DirIx) (b : ScannedBay) : Prop :=
  b.header.slot = i ∧ chainZero owned b.header.info.serial = some b

/-- One bay looked at in the search for a slot's holder. -/
def holderStep (owned : List ScannedBay) (i : DirIx) (best : Option ScannedBay) (b : ScannedBay) : Option ScannedBay :=
  if b.header.slot = i ∧ chainZero owned b.header.info.serial = some b then
    match best with
    | none => some b
    | some x => if x.header.info.serial.toNat < b.header.info.serial.toNat then some b else some x
  else best

/-- Of the bays looked at, one that leads and has the largest serial of those, or none that leads. -/
def Best (owned : List ScannedBay) (i : DirIx) (l : List ScannedBay) : Option ScannedBay → Prop
  | none => ∀ b ∈ l, ¬ Leads owned i b
  | some x => x ∈ l ∧ Leads owned i x ∧
      ∀ b ∈ l, Leads owned i b → b.header.info.serial.toNat ≤ x.header.info.serial.toNat

theorem holderStep_best {owned : List ScannedBay} {i : DirIx} {l : List ScannedBay} {best : Option ScannedBay}
    (spec : Best owned i l best) (a : ScannedBay) : Best owned i (l ++ [a]) (holderStep owned i best a) := by
  have older {x b : ScannedBay} (le : a.header.info.serial.toNat ≤ x.header.info.serial.toNat)
      (others : ∀ b ∈ l, Leads owned i b → b.header.info.serial.toNat ≤ x.header.info.serial.toNat)
      (member : b ∈ l ++ [a]) (leads : Leads owned i b) :
      b.header.info.serial.toNat ≤ x.header.info.serial.toNat := by
    rcases List.mem_append.1 member with old | new
    · exact others b old leads
    · exact List.mem_singleton.1 new ▸ le
  unfold holderStep
  by_cases leads : Leads owned i a
  · rw [if_pos (by exact leads)]
    have last : a ∈ l ++ [a] := List.mem_append_right _ (List.mem_singleton_self a)
    cases best with
    | none => exact ⟨last, leads, fun b => older (Nat.le_refl _) fun c member lc => absurd lc (spec c member)⟩
    | some x =>
      obtain ⟨member, leadsX, others⟩ := spec
      dsimp only
      split
      · next lt => exact ⟨last, leads, fun b => older (Nat.le_refl _) fun c inL lc =>
          Nat.le_of_lt (Nat.lt_of_le_of_lt (others c inL lc) lt)⟩
      · next ge => exact ⟨List.mem_append_left _ member, leadsX, fun b => older (Nat.le_of_not_lt ge) others⟩
  · rw [if_neg (by exact leads)]
    cases best with
    | none =>
      intro b member
      rcases List.mem_append.1 member with old | new
      · exact spec b old
      · exact List.mem_singleton.1 new ▸ leads
    | some x =>
      obtain ⟨member, leadsX, others⟩ := spec
      refine ⟨List.mem_append_left _ member, leadsX, fun b inL lb => ?_⟩
      rcases List.mem_append.1 inL with old | new
      · exact others b old lb
      · exact absurd (List.mem_singleton.1 new ▸ lb) leads

theorem slotHolder_best (owned : List ScannedBay) (i : DirIx) : Best owned i owned (slotHolder owned i) := by
  have spec (l seen : List ScannedBay) (best : Option ScannedBay) (holds : Best owned i seen best) :
      Best owned i (seen ++ l) (l.foldl (holderStep owned i) best) := by
    induction l generalizing seen best with
    | nil => exact (List.append_nil seen).symm ▸ holds
    | cons a l ih =>
      have later := ih (seen ++ [a]) (holderStep owned i best a) (holderStep_best holds a)
      rwa [List.append_assoc] at later
  exact spec owned [] none fun b member => absurd member List.not_mem_nil

/-- Each bay of a chain is an owned bay with the chain index of its place. -/
theorem chainFrom_get {owned : List ScannedBay} {h : TakeHeader} {fuel index k : Nat} {bay : Bay}
    (there : (chainFrom owned h fuel index)[k]? = some bay) :
    ∃ c, owned.find? (fun b => decide (b.header = { h with chain := index + k })) = some c ∧ c.bay = bay := by
  induction fuel generalizing index k with
  | zero => exact nomatch there
  | succ fuel ih =>
    unfold chainFrom at there
    split at there
    · exact nomatch there
    · next c found =>
      cases k with
      | zero => exact ⟨c, found, Option.some.inj there⟩
      | succ k =>
        have rest := ih (index := index + 1) there
        rwa [Nat.add_right_comm] at rest

theorem header_of_find {owned : List ScannedBay} {h : TakeHeader} {c : ScannedBay}
    (found : owned.find? (fun b => decide (b.header = h)) = some c) : c.header = h := by
  simpa using List.find?_some found

/-- Where the images stand apart, an element is known by its image. -/
theorem eq_of_nodup_map {α β : Type} {f : α → β} {l : List α} (nodup : (l.map f).Nodup) {x y : α} (inX : x ∈ l)
    (inY : y ∈ l) (same : f x = f y) : x = y := by
  induction l with
  | nil => exact absurd inX List.not_mem_nil
  | cons a l ih =>
    rw [List.map_cons, List.nodup_cons] at nodup
    obtain ⟨fresh, rest⟩ := nodup
    rcases List.mem_cons.1 inX with rfl | laterX
    · rcases List.mem_cons.1 inY with rfl | laterY
      · rfl
      · exact absurd (same ▸ List.mem_map_of_mem laterY) fresh
    · rcases List.mem_cons.1 inY with rfl | laterY
      · exact absurd (same ▸ List.mem_map_of_mem laterX) fresh
      · exact ih rest laterX laterY

theorem chainFrom_nodup {owned : List ScannedBay} (apart : (owned.map (·.bay)).Nodup) (h : TakeHeader)
    (fuel index : Nat) : (chainFrom owned h fuel index).Nodup := by
  refine List.pairwise_iff_getElem.2 fun j k boundJ bound lt equal => ?_
  obtain ⟨bay, there⟩ : ∃ bay, (chainFrom owned h fuel index)[k]? = some bay := ⟨_, List.getElem?_eq_getElem bound⟩
  have same : (chainFrom owned h fuel index)[j]? = (chainFrom owned h fuel index)[k]? := by
    rw [List.getElem?_eq_getElem boundJ, List.getElem?_eq_getElem bound, equal]
  obtain ⟨c, foundC, bayC⟩ := chainFrom_get (same.trans there)
  obtain ⟨d, foundD, bayD⟩ := chainFrom_get there
  have eq : c = d := eq_of_nodup_map apart (List.mem_of_find?_eq_some foundC)
    (List.mem_of_find?_eq_some foundD) (bayC.trans bayD.symm)
  have headers := (header_of_find foundC).symm.trans (eq ▸ header_of_find foundD)
  have chains := congrArg TakeHeader.chain headers
  dsimp only at chains
  omega

theorem mem_chainFrom {owned : List ScannedBay} {h : TakeHeader} {fuel index : Nat} {bay : Bay}
    (member : bay ∈ chainFrom owned h fuel index) : ∃ c ∈ owned, c.header.slot = h.slot ∧ c.bay = bay := by
  obtain ⟨k, there⟩ := List.mem_iff_getElem?.1 member
  obtain ⟨c, found, same⟩ := chainFrom_get there
  refine ⟨c, List.mem_of_find?_eq_some found, ?_, same⟩
  rw [header_of_find found]

theorem Scan.directory_get (sc : Scan) (i : DirIx) : sc.directory[i] = match slotHolder sc.owned i with
    | some b => scannedSlot sc.owned b
    | none => DirectorySlot.reset := by
  simp only [Scan.directory, Fin.getElem_fin, Vector.getElem_ofFn, Fin.eta] <;> rfl

theorem Scan.mem_directory {sc : Scan} {i : DirIx} {bay : Bay} (member : bay ∈ sc.directory[i].bays) :
    ∃ c ∈ sc.owned, c.header.slot = i ∧ c.bay = bay := by
  rw [Scan.directory_get] at member
  split at member
  · next x holder =>
    obtain ⟨-, leads, -⟩ := (holder ▸ slotHolder_best sc.owned i : Best sc.owned i sc.owned (some x))
    obtain ⟨c, owned, slot, same⟩ := mem_chainFrom member
    exact ⟨c, owned, slot.trans leads.1, same⟩
  · exact absurd member List.not_mem_nil

/-- What the scan found stands apart once the directory is filled. -/
theorem Scan.directory_apart {sc : Scan} (nodup : (sc.erased ++ sc.owned.map (·.bay)).Nodup) :
    (sc.erased ++ (List.finRange 64).flatMap fun i : DirIx => sc.directory[i].bays).Nodup := by
  obtain ⟨erased, owned, disjoint⟩ := List.nodup_append.1 nodup
  refine List.nodup_append.2 ⟨erased, List.pairwise_flatMap.2 ⟨fun i _ => ?_, ?_⟩, fun b inErased b' member same => ?_⟩
  · rw [Scan.directory_get]
    split
    · exact chainFrom_nodup owned _ _ _
    · exact List.nodup_nil
  · refine (List.nodup_finRange 64).imp fun ne b inI b' inJ same => ne ?_
    obtain ⟨c, memberC, slotC, bayC⟩ := Scan.mem_directory inI
    obtain ⟨d, memberD, slotD, bayD⟩ := Scan.mem_directory (same ▸ inJ)
    have eq : c = d := eq_of_nodup_map owned memberC memberD (bayC.trans bayD.symm)
    rw [← slotC, ← slotD, eq]
  · obtain ⟨i, -, inSlot⟩ := List.mem_flatMap.1 member
    obtain ⟨c, memberC, -, bayC⟩ := Scan.mem_directory inSlot
    exact disjoint b inErased b' (bayC ▸ List.mem_map_of_mem memberC) same

/-! ### The law over the reads of the scan -/

section
variable {s : Part} {sc : Scan}

/-- What of the array the scan leaves alone. -/
structure TakeArray.ScanWork (t u : TakeArray) : Prop where
  memory : u.memory = t.memory := by exact rfl
  operation : u.operation = t.operation := by exact rfl
  suspended : u.suspended = t.suspended := by exact rfl
  playerJobs : u.playerJobs = t.playerJobs := by exact rfl
  recorderJobs : u.recorderJobs = t.recorderJobs := by exact rfl
  laneJobs : u.laneJobs = t.laneJobs := by exact rfl
  freeze : u.freeze = t.freeze := by exact rfl
  clearing : u.clearing = t.clearing := by exact rfl

/-- The directory of a scan in progress: Empty slots have no bays, and no bay stands twice. -/
structure TakeArray.Filled (t : TakeArray) (erased : List Bay) : Prop where
  empty : ∀ i : DirIx, t.directory[i].state = .empty → t.directory[i].bays = []
  apart : (erased ++ t.held).Nodup

/-- The part while the scan runs. -/
theorem Part.BayLaw.whileScan (law : s.BayLaw) (scan : s.array.scan = some sc) {u : TakeArray}
    (same : s.array.ScanWork u) {sc' : Scan} (complete : u.scanComplete = false) (scan' : u.scan = some sc')
    (empty : ∀ i : DirIx, u.directory[i].state = .empty → u.directory[i].bays = []) (apart : u.ScanApart sc') :
    Part.BayLaw { s with array := u } := by
  obtain ⟨before, idle, none, plain, -⟩ := law.scanning sc scan
  have work : u.work = s.array.work := by
    unfold TakeArray.work
    rw [same.operation, same.playerJobs, same.recorderJobs, same.laneJobs]
  have quiet : s.recorder.state = .idle := Decidable.byContradiction fun busy =>
    nomatch before.symm.trans (law.recording busy).1
  exact {
    once := fun done => nomatch complete.symm.trans done
    oneErase := fun _ _ => same.suspended.trans none
    empty
    scanning := fun x eq => by
      obtain rfl := Option.some.inj (scan'.symm.trans eq)
      refine ⟨complete, same.operation.trans idle, same.suspended.trans none, fun j member => plain j ?_, apart⟩
      rwa [← work]
    retire := fun i bay member => by
      rw [work] at member
      exact nomatch plain _ member
    clear := fun i bay member => by
      rw [work] at member
      exact nomatch plain _ member
    recording := fun busy => absurd quiet busy
    reserved := fun bay some => by
      have state := (law.reserved bay some).1
      simp [quiet] at state }

theorem TakeArray.scanDone_dirty (t : TakeArray) (sc : Scan) : (t.scanDone sc).dirty =
    (List.finRange 512).filter fun b => !sc.erased.contains b && !t.held.contains b := by
  simp only [TakeArray.scanDone, TakeArray.held]

theorem TakeArray.mem_scanDone_dirty {t : TakeArray} {sc : Scan} {b : Bay} :
    b ∈ (t.scanDone sc).dirty ↔ b ∉ sc.erased ∧ b ∉ t.held := by
  rw [TakeArray.scanDone_dirty, List.mem_filter]
  simp only [List.mem_finRange, true_and, List.contains_eq_mem, Bool.and_eq_true, Bool.not_eq_true',
    decide_eq_false_iff_not]

theorem TakeArray.scanDone_dirty_nodup (t : TakeArray) (sc : Scan) : (t.scanDone sc).dirty.Nodup := by
  rw [TakeArray.scanDone_dirty]
  exact (List.nodup_finRange 512).filter _

/-- When the scan is over every bay is found, held or dirty, and one of these only. -/
theorem TakeArray.scanDone_count {t : TakeArray} {sc : Scan} (apart : (sc.erased ++ t.held).Nodup) (b : Bay) :
    sc.erased.count b + (t.scanDone sc).dirty.count b + t.held.count b = 1 := by
  have one := List.nodup_iff_count.1 apart b
  rw [List.count_append] at one
  by_cases member : b ∈ sc.erased ++ t.held
  · have out : (t.scanDone sc).dirty.count b = 0 := List.count_eq_zero.2 fun dirty => by
      obtain ⟨a, c⟩ := TakeArray.mem_scanDone_dirty.1 dirty
      exact (List.mem_append.1 member).elim a c
    have pos := List.count_pos_iff.2 member
    rw [List.count_append] at pos
    omega
  · have out := List.count_eq_zero.2 member
    rw [List.count_append] at out
    rw [List.mem_append, not_or] at member
    have dirty := (t.scanDone_dirty_nodup sc).count (a := b)
    rw [if_pos (TakeArray.mem_scanDone_dirty.2 member)] at dirty
    omega

/-- The part when the scan is complete. -/
theorem Part.BayLaw.afterScan (law : s.BayLaw) (scan : s.array.scan = some sc) {t : TakeArray}
    (same : s.array.ScanWork t) {erased : List Bay} (filled : t.Filled erased) {sc' : Scan} (eq : sc'.erased = erased) :
    Part.BayLaw { s with array := t.scanDone sc' } := by
  subst eq
  obtain ⟨before, idle, none, plain, -⟩ := law.scanning sc scan
  have work : (t.scanDone sc').work = s.array.work := by
    unfold TakeArray.work TakeArray.scanDone
    dsimp only
    rw [same.operation, same.playerJobs, same.recorderJobs, same.laneJobs]
  have quiet : s.recorder.state = .idle := Decidable.byContradiction fun busy =>
    nomatch before.symm.trans (law.recording busy).1
  exact {
    once := fun _ b => by
      have suspended : (t.scanDone sc').suspended = Option.none := same.suspended.trans none
      have erasing : (t.scanDone sc').erasing = [] := by
        unfold TakeArray.erasing TakeArray.scanDone
        dsimp only
        rw [same.operation, idle]
      have held : (t.scanDone sc').held = t.held := rfl
      have queue : (t.scanDone sc').erased = sc'.erased := rfl
      rw [TakeArray.places_eq, suspended, erasing, held, queue]
      simpa only [List.count_append, List.count_nil, Option.toList_none, Nat.add_zero]
        using TakeArray.scanDone_count filled.apart b
    oneErase := fun _ _ => same.suspended.trans none
    empty := filled.empty
    scanning := fun x eq => nomatch eq
    retire := fun i bay member => by
      rw [work] at member
      exact nomatch plain _ member
    clear := fun i bay member => by
      rw [work] at member
      exact nomatch plain _ member
    recording := fun busy => absurd quiet busy
    reserved := fun bay some => by
      have state := (law.reserved bay some).1
      simp [quiet] at state }

theorem Part.BayLaw.scanNext (law : s.BayLaw) (scan : s.array.scan = some sc) {t : TakeArray}
    (same : s.array.ScanWork t) (complete : t.scanComplete = false) (sc' : Scan) (filled : t.Filled sc'.erased)
    (rest : List DirIx) : Part.BayLaw { s with array := t.scanNext sc' rest } := by
  cases rest with
  | nil => exact law.afterScan scan same filled rfl
  | cons i rest => exact law.whileScan scan { same with } complete rfl filled.empty filled.apart

theorem TakeArray.Filled.setSlot {t : TakeArray} {erased : List Bay} (filled : t.Filled erased) (i : DirIx)
    (d : DirectorySlot) (empty : d.state = .empty → d.bays = []) (fewer : d.bays.Sublist t.directory[i].bays) :
    (t.setSlot i d).Filled erased where
  empty := fun j => by
    by_cases eq : j = i
    · subst eq
      rw [TakeArray.setSlot_same]
      exact empty
    · rw [TakeArray.setSlot_other _ _ eq]
      exact filled.empty j
  apart := by
    rw [List.nodup_iff_count]
    intro b
    have one := List.nodup_iff_count.1 filled.apart b
    have change := TakeArray.held_count_slot (t := t) (u := t.setSlot i d) (i := i)
      (fun j ne => by rw [TakeArray.setSlot_other _ _ ne]) b
    rw [TakeArray.setSlot_same] at change
    have less := fewer.count_le b
    simp only [List.count_append] at one ⊢
    omega

theorem Part.BayLaw.scanHeadersDone (law : s.BayLaw) (scan : s.array.scan = some sc) (sc' : Scan)
    (apart : (sc'.erased ++ sc'.owned.map (·.bay)).Nodup) :
    Part.BayLaw { s with array := s.array.scanHeadersDone sc' } := by
  unfold TakeArray.scanHeadersDone
  refine law.scanNext (t := { s.array with directory := sc'.directory }) scan {} (law.scanning sc scan).1 _
    ⟨fun i empty => ?_, Scan.directory_apart apart⟩ _
  dsimp only at empty ⊢
  rw [Scan.directory_get] at empty ⊢
  split at empty
  · exact nomatch empty
  · rfl

/-- R142 to R144: each read of the scan keeps the bays in their places, and its end gives each its own. -/
theorem Part.BayLaw.scanRead (law : s.BayLaw) (scan : s.array.scan = some sc) :
    Part.BayLaw { s with array := s.array.scanRead sc } := by
  obtain ⟨complete, -, -, -, apart⟩ := law.scanning sc scan
  unfold TakeArray.ScanApart at apart
  unfold TakeArray.scanRead
  split
  · next next phase =>
    rw [phase] at apart
    obtain ⟨nodup, below⟩ := apart
    split
    · next lt =>
      obtain ⟨nodup', below'⟩ := Scan.header_apart lt (s.array.memory.readPage ⟨next, lt⟩ 0) nodup below
      dsimp only
      split
      · exact law.scanHeadersDone scan _ nodup'
      · exact law.whileScan scan {} complete rfl law.empty ⟨nodup', below'⟩
    · exact law.scanHeadersDone scan sc nodup
  · next i page last rest phase =>
    rw [phase] at apart
    have filled : s.array.Filled sc.erased := ⟨law.empty, apart⟩
    have ended (d : DirectorySlot) (hasEnd : Bool) (bays : d.bays = s.array.directory[i].bays) :
        Part.BayLaw { s with array := (s.array.setSlot i (d.scanned hasEnd)).scanNext sc rest } := by
      refine law.scanNext (t := s.array.setSlot i (d.scanned hasEnd)) scan {} complete sc (filled.setSlot i _ ?_ ?_) rest
      · unfold DirectorySlot.scanned
        cases hasEnd <;> exact nofun
      · exact bays ▸ List.take_sublist _ _
    have counted (d : DirectorySlot) (sc' : Scan) (state : d.state = s.array.directory[i].state)
        (bays : d.bays = s.array.directory[i].bays) (pages : ∃ j k x l, sc'.phase = .pages j k x l)
        (erased : sc'.erased = sc.erased) :
        Part.BayLaw { s with array := { s.array.setSlot i d with scan := some sc' } } := by
      have still : (s.array.setSlot i d).Filled sc.erased := filled.setSlot i d
        (fun empty => bays.trans (law.empty i (state.symm.trans empty))) (bays ▸ .refl _)
      refine law.whileScan scan {} complete rfl still.empty ?_
      obtain ⟨_, _, _, _, phase⟩ := pages
      unfold TakeArray.ScanApart
      rw [phase, erased]
      exact still.apart
    dsimp only
    split
    · exact ended _ _ rfl
    · split
      · exact ended _ _ rfl
      · exact counted _ _ rfl rfl ⟨_, _, _, _, rfl⟩ rfl

end

end Sys2Proof.Machine
end

section
set_option Elab.async false
/-! SETTLED. The law of the bays over the requests of the take array, and over the programs and erases that complete. -/

namespace Sys2Proof.Machine

section
variable {s : Part} {i : DirIx}

/-! ### Retires of a slot -/

theorem Job.isRetire_cases {j : Job} (retire : j.isRetire = true) :
    ∃ i bay, j = .retire i bay ∨ j = .clearRetire i bay := by
  cases j
  case retire i bay => exact ⟨i, bay, .inl rfl⟩
  case clearRetire i bay => exact ⟨i, bay, .inr rfl⟩
  all_goals exact nomatch retire

/-- With no clear under way the retires are those of Take Erases, each of its Retiring slot. -/
theorem Part.BayLaw.of_retires (law : s.BayLaw) (clearing : s.array.clearing = false) {j : Job}
    (member : j ∈ s.array.retires) : ∃ i bay, j = .retire i bay ∧ s.array.directory[i].state = .retiring := by
  obtain ⟨work, retire⟩ := TakeArray.mem_retires.1 member
  obtain ⟨i, bay, rfl | rfl⟩ := Job.isRetire_cases retire
  · exact ⟨i, bay, rfl, (law.retire i bay work).2.1⟩
  · exact nomatch clearing.symm.trans (law.clear i bay work).1

/-- Requests of the lane added at the end of its list. -/
theorem TakeArray.retires_lane (t : TakeArray) (js : List Job) :
    TakeArray.retires { t with laneJobs := t.laneJobs ++ js } = t.retires ++ js.filter Job.isRetire := by
  unfold TakeArray.retires TakeArray.work
  simp only [← List.append_assoc, List.filter_append]

theorem TakeArray.retires_congr {t u : TakeArray} (operation : u.operation = t.operation)
    (player : u.playerJobs = t.playerJobs) (recorder : u.recorderJobs = t.recorderJobs)
    (lane : u.laneJobs = t.laneJobs) : u.retires = t.retires := by
  unfold TakeArray.retires TakeArray.work
  rw [operation, player, recorder, lane]

/-- A request of the array is one in progress or one that waits. -/
theorem TakeArray.retires_idle {t : TakeArray} (idle : t.operation = none) :
    t.retires = t.line.filter Job.isRetire := by
  rw [TakeArray.retires_eq]
  unfold TakeArray.current
  rw [idle]
  rfl

theorem TakeArray.retires_job {t : TakeArray} {j : Job} {w : Bool} (job : t.operation = some (.job j w))
    (retire : j.isRetire = true) : t.retires = j :: t.line.filter Job.isRetire := by
  rw [TakeArray.retires_eq]
  unfold TakeArray.current
  rw [job]
  simp [retire]

/-! ### Take Erase -/

/-- A finished take becomes Retiring, and the retire of its first bay is asked for. -/
theorem Part.BayLaw.beginErase (law : s.BayLaw) (complete : s.array.scanComplete = true)
    (clearing : s.array.clearing = false) (finished : s.array.directory[i].state.finished = true) {u : TakeArray}
    (same : u = { s.array with directory := u.directory, laneJobs := u.laneJobs })
    (here : u.directory[i] = { s.array.directory[i] with state := .retiring })
    (there : ∀ k : DirIx, k ≠ i → u.directory[k] = s.array.directory[k])
    (lane : u.retires = s.array.retires ++ s.array.directory[i].bays.head?.toList.map fun b => .retire i b) :
    Part.BayLaw { s with array := u } := by
  have ne {k : DirIx} {x : SlotState} (state : s.array.directory[k].state = x) (other : x.finished = false) : k ≠ i := by
    rintro rfl
    rw [state, other] at finished
    exact nomatch finished
  have none (j : Job) (member : j ∈ s.array.retires) : j.slot ≠ i := by
    obtain ⟨k, bay, rfl, state⟩ := law.of_retires clearing member
    exact ne state rfl
  have bays (k : DirIx) : u.directory[k].bays = s.array.directory[k].bays := by
    by_cases eq : k = i
    · rw [eq, here]
    · rw [there k eq]
  have operation : u.operation = s.array.operation := by rw [same]
  have suspended : u.suspended = s.array.suspended := by rw [same]
  have clear : u.clearing = false := by rw [same]; exact clearing
  have old {j : Job} (member : j ∈ u.retires) :
      j ∈ s.array.retires ∨ ∃ b, s.array.directory[i].bays.head? = some b ∧ j = .retire i b := by
    rw [lane, List.mem_append] at member
    refine member.imp_right fun new => ?_
    simp only [List.mem_map, Option.mem_toList] at new
    obtain ⟨b, head, rfl⟩ := new
    exact ⟨b, head, rfl⟩
  exact {
    once := fun _ b => by
      have once := law.once complete b
      have erased : u.erased = s.array.erased := by rw [same]
      have dirty : u.dirty = s.array.dirty := by rw [same]
      have erasing : u.erasing = s.array.erasing := by unfold TakeArray.erasing; rw [operation]
      rw [TakeArray.places_eq] at once ⊢
      rw [TakeArray.held_congr (t := s.array) bays, erased, dirty, erasing, suspended]
      exact once
    oneErase := fun bay erase => suspended.trans (law.oneErase bay (operation.symm.trans erase))
    empty := fun k empty => by
      by_cases eq : k = i
      · subst eq
        exact nomatch (congrArg DirectorySlot.state here).symm.trans empty
      · rw [bays]
        exact law.empty k ((congrArg DirectorySlot.state (there k eq)).symm.trans empty)
    scanning := fun sc scan => by
      have before : u.scan = s.array.scan := by rw [same]
      exact nomatch (law.ended complete).symm.trans (before.symm.trans scan)
    retire := fun k bay work => by
      rw [TakeArray.retires_slot]
      rcases old (TakeArray.mem_retires.2 ⟨work, rfl⟩) with before | ⟨b, head, eq⟩
      · obtain ⟨-, state, member, one⟩ := law.retire k bay (TakeArray.mem_retires.1 before).1
        have other : k ≠ i := ne state rfl
        refine ⟨clear, by rw [there k other]; exact state, by rw [bays]; exact member, ?_⟩
        rw [TakeArray.retires_slot] at one
        rw [lane, List.filter_append, List.length_append, one]
        cases s.array.directory[i].bays.head? <;> simp [Job.slot, Ne.symm other]
      · cases eq
        refine ⟨clear, by rw [here], by rw [bays]; exact List.mem_of_mem_head? head, ?_⟩
        rw [lane, List.filter_append, List.filter_eq_nil_iff.2 fun j member => by simpa using none j member, head]
        simp [Job.slot]
    clear := fun k bay work => by
      rcases old (TakeArray.mem_retires.2 ⟨work, rfl⟩) with before | ⟨b, head, eq⟩
      · exact nomatch clearing.symm.trans (law.clear k bay (TakeArray.mem_retires.1 before).1).1
      · exact nomatch eq
    recording := fun busy => by
      obtain ⟨done, k, slot, state⟩ := law.recording busy
      refine ⟨?_, k, slot, by rw [there k (ne state rfl)]; exact state⟩
      rw [same]
      exact done
    reserved := fun bay some => by
      obtain ⟨state, member⟩ := law.reserved bay some
      exact ⟨state, fun k slot => by rw [bays]; exact member k slot⟩ }

/-- An accepted Take Erase, before the controller looks at it. -/
theorem Part.BayLaw.eraseTake (law : s.BayLaw) (complete : s.array.scanComplete = true)
    (clearing : s.array.clearing = false) (finished : s.array.directory[i].state.finished = true) :
    Part.BayLaw { s with array := { s.array.setSlot i { s.array.directory[i] with state := .retiring } with
      laneJobs := s.array.laneJobs ++ s.array.directory[i].bays.head?.toList.map fun b => .retire i b } } := by
  refine law.beginErase complete clearing finished rfl (TakeArray.setSlot_same _ _ _)
    (fun k ne => TakeArray.setSlot_other _ _ ne) ?_
  have lane := TakeArray.retires_lane (s.array.setSlot i { s.array.directory[i] with state := .retiring })
    (s.array.directory[i].bays.head?.toList.map fun b => .retire i b)
  refine lane.trans (congrArg (s.array.retires ++ ·) ?_)
  cases s.array.directory[i].bays <;> rfl

/-! ### Array Clear -/

theorem DirectorySlot.cleared_bays (d : DirectorySlot) : d.cleared.bays = d.bays := by
  unfold DirectorySlot.cleared
  split
  case h_3 =>
    split
    · next empty => exact (List.isEmpty_iff.1 empty).symm
    · rfl
  all_goals rfl

theorem DirectorySlot.cleared_empty {d : DirectorySlot} (law : d.state = .empty → d.bays = [])
    (empty : d.cleared.state = .empty) : d.cleared.bays = [] := by
  unfold DirectorySlot.cleared at empty ⊢
  split at empty
  case h_3 =>
    split at empty
    · next none => simp only [none, if_true]; rfl
    · exact nomatch empty
  case h_4 state => exact law state
  all_goals simp_all

theorem TakeArray.slotBusy_false {t : TakeArray} (free : t.slotBusy = false) (i : DirIx) :
    t.directory[i].state ≠ .recording ∧ t.directory[i].state ≠ .retiring := by
  have all := (List.any_eq_false.1 free) i (List.mem_finRange i)
  simpa only [Bool.or_eq_true, decide_eq_true_eq, not_or] using all

/-- The slots take the states of an accepted clear, and its first retire at most is asked for. -/
theorem Part.BayLaw.beginClear (law : s.BayLaw) (complete : s.array.scanComplete = true)
    (free : s.array.slotBusy = false) {u : TakeArray}
    (same : u = { s.array with directory := u.directory, laneJobs := u.laneJobs, clearing := u.clearing })
    (slots : ∀ k : DirIx, u.directory[k] = s.array.directory[k].cleared)
    (plain : ∀ i bay, .retire i bay ∉ u.retires)
    (under : ∀ i bay, .clearRetire i bay ∈ u.retires → u.clearing = true ∧ u.retires.length = 1) :
    Part.BayLaw { s with array := u } := by
  have quiet : s.recorder.state = .idle := Decidable.byContradiction fun busy => by
    obtain ⟨-, k, -, state⟩ := law.recording busy
    exact (TakeArray.slotBusy_false free k).1 state
  have operation : u.operation = s.array.operation := by rw [same]
  have suspended : u.suspended = s.array.suspended := by rw [same]
  exact {
    once := fun _ b => by
      have once := law.once complete b
      have erased : u.erased = s.array.erased := by rw [same]
      have dirty : u.dirty = s.array.dirty := by rw [same]
      have erasing : u.erasing = s.array.erasing := by unfold TakeArray.erasing; rw [operation]
      rw [TakeArray.places_eq] at once ⊢
      rw [TakeArray.held_congr (t := s.array) fun k => by rw [slots, DirectorySlot.cleared_bays], erased, dirty, erasing,
        suspended]
      exact once
    oneErase := fun bay erase => suspended.trans (law.oneErase bay (operation.symm.trans erase))
    empty := fun k empty => by
      dsimp only at empty ⊢
      rw [slots] at empty ⊢
      exact DirectorySlot.cleared_empty (law.empty k) empty
    scanning := fun sc scan => by
      have before : u.scan = s.array.scan := by rw [same]
      exact nomatch (law.ended complete).symm.trans (before.symm.trans scan)
    retire := fun k bay work => absurd (TakeArray.mem_retires.2 ⟨work, rfl⟩) (plain k bay)
    clear := fun k bay work => under k bay (TakeArray.mem_retires.2 ⟨work, rfl⟩)
    recording := fun busy => absurd quiet busy
    reserved := fun bay some => by
      have state := (law.reserved bay some).1
      simp [quiet] at state }

/-- The directory of an accepted clear. -/
theorem TakeArray.cleared_get (t : TakeArray) (k : DirIx) :
    (Vector.ofFn fun i : DirIx => t.directory[i].cleared)[k] = t.directory[k].cleared := by simp

/-- An accepted clear, before the controller looks at it: its first retire is asked for, or it is over. -/
theorem Part.BayLaw.clearArray (law : s.BayLaw) (complete : s.array.scanComplete = true)
    (free : s.array.slotBusy = false) (clearing : s.array.clearing = false) :
    (∀ p : DirIx × Bay, Part.BayLaw { s with array := { s.array with
      directory := Vector.ofFn fun i : DirIx => s.array.directory[i].cleared
      clearing := true, laneJobs := s.array.laneJobs ++ [.clearRetire p.1 p.2] } }) ∧
    Part.BayLaw { s with array := { s.array with
      directory := Vector.ofFn fun i : DirIx => s.array.directory[i].cleared, clearing := false } } := by
  have plain : s.array.retires = [] := List.eq_nil_iff_forall_not_mem.2 fun j member => by
    obtain ⟨k, bay, -, state⟩ := law.of_retires clearing member
    exact (TakeArray.slotBusy_false free k).2 state
  have lane (u : TakeArray) (js : List Job)
      (same : u = { s.array with directory := u.directory, clearing := u.clearing, laneJobs := u.laneJobs })
      (added : u.laneJobs = s.array.laneJobs ++ js) : u.retires = js.filter Job.isRetire := by
    have congr : u.retires = TakeArray.retires { s.array with laneJobs := s.array.laneJobs ++ js } :=
      TakeArray.retires_congr (by rw [same]) (by rw [same]) (by rw [same]) added
    rw [congr, TakeArray.retires_lane, plain, List.nil_append]
  refine ⟨fun p => ?_, ?_⟩
  · refine law.beginClear complete free rfl s.array.cleared_get (fun k bay member => ?_) fun _ _ _ => ⟨rfl, ?_⟩
    · rw [lane _ [.clearRetire p.1 p.2] rfl rfl] at member
      simp [Job.isRetire] at member
    · rw [lane _ [.clearRetire p.1 p.2] rfl rfl]
      rfl
  · refine law.beginClear complete free rfl s.array.cleared_get (fun k bay member => ?_) fun k bay member => ?_
    all_goals
      have member := (congrArg (_ ∈ ·) (lane _ [] rfl (by exact (List.append_nil _).symm))).mp member
      exact absurd member List.not_mem_nil

/-! ### Takes opened and closed -/

theorem TakeArray.openSlot_get (t : TakeArray) (i : DirIx) (state : SlotState) (mask : Mask) (divisor : Nat)
    (modes : Vector LensMode 4) : (t.openSlot i state mask divisor modes).directory[i].state = state ∧
      (t.openSlot i state mask divisor modes).directory[i].bays = [] ∧
      ∀ j : DirIx, j ≠ i → (t.openSlot i state mask divisor modes).directory[j] = t.directory[j] := by
  have here := TakeArray.setSlot_same t i { DirectorySlot.reset with
      state := state
      info := { serial := t.serial, mask := mask, divisor := divisor, modes := modes, startFrame := 0 } }
  refine ⟨?_, ?_, fun j ne => TakeArray.setSlot_other t _ ne⟩
  · exact congrArg DirectorySlot.state here
  · exact congrArg DirectorySlot.bays here

/-- The clauses on the recorder, where a slot that is not the recording's changes. -/
theorem Part.BayLaw.recorder_beside (law : s.BayLaw) (other : s.array.directory[i].state ≠ .recording)
    {t : TakeArray} (others : ∀ j : DirIx, j ≠ i → t.directory[j].state = s.array.directory[j].state ∧
      t.directory[j].bays = s.array.directory[j].bays) :
    (s.recorder.state ≠ .idle → ∃ k, s.recorder.slot = some k ∧ t.directory[k].state = .recording) ∧
    ∀ bay, s.recorder.reserved = some bay → (s.recorder.state = .recording ∨ s.recorder.state = .stalled) ∧
      ∀ k, s.recorder.slot = some k → bay ∈ t.directory[k].bays := by
  have named (busy : s.recorder.state ≠ .idle) : ∃ k, s.recorder.slot = some k ∧
      s.array.directory[k].state = .recording ∧ k ≠ i := by
    obtain ⟨-, k, slot, state⟩ := law.recording busy
    exact ⟨k, slot, state, fun eq => other (eq ▸ state)⟩
  refine ⟨fun busy => ?_, fun bay some => ?_⟩
  · obtain ⟨k, slot, state, ne⟩ := named busy
    exact ⟨k, slot, (others k ne).1.trans state⟩
  · obtain ⟨state, member⟩ := law.reserved bay some
    obtain ⟨k, slot, -, ne⟩ := named (by rcases state with h | h <;> rw [h] <;> exact nofun)
    refine ⟨state, fun j slot' => ?_⟩
    obtain rfl : k = j := Option.some.inj (slot.symm.trans slot')
    rw [(others k ne).2]
    exact member k slot

theorem Part.BayLaw.openImport (law : s.BayLaw) (complete : s.array.scanComplete = true)
    (free : s.array.directory[i].state = .empty) (mask : Mask) (divisor : Nat) (modes : Vector LensMode 4) :
    Part.BayLaw { s with array := s.array.openSlot i .importing mask divisor modes } := by
  obtain ⟨state, bays, there⟩ := s.array.openSlot_get i .importing mask divisor modes
  obtain ⟨recording, reserved⟩ := law.recorder_beside (by rw [free]; exact nofun)
    (t := s.array.openSlot i .importing mask divisor modes) fun j ne => by rw [there j ne]; exact ⟨rfl, rfl⟩
  refine Part.Moves.bayLaw (s := s) (i := i) ?_ law
  exact {
    complete
    plain := by rw [free]; exact nofun
    others := fun j ne => by rw [there j ne]; exact ⟨rfl, rfl⟩
    bays := fun b => by rw [bays, law.empty i free]; rfl
    empty := fun _ => bays
    recording
    reserved }

theorem Part.BayLaw.closeImport (law : s.BayLaw) (complete : s.array.scanComplete = true)
    (importing : s.array.directory[i].state = .importing) (d : DirectorySlot) (closed : d.state = .closed)
    (bays : d.bays = s.array.directory[i].bays) : Part.BayLaw { s with array := s.array.setSlot i d } := by
  have here := TakeArray.setSlot_same s.array i d
  have there (j : DirIx) (ne : j ≠ i) := TakeArray.setSlot_other s.array d ne
  obtain ⟨recording, reserved⟩ := law.recorder_beside (by rw [importing]; exact nofun)
    (t := s.array.setSlot i d) fun j ne => by rw [there j ne]; exact ⟨rfl, rfl⟩
  refine Part.Moves.bayLaw (s := s) (i := i) ?_ law
  exact {
    complete
    plain := by rw [importing]; exact nofun
    others := fun j ne => by rw [there j ne]; exact ⟨rfl, rfl⟩
    bays := fun b => by rw [here, bays]; rfl
    empty := fun empty => by
      dsimp only at empty
      rw [here, closed] at empty
      exact nomatch empty
    recording
    reserved }

/-- The head of the erased queue becomes a bay of an import. -/
theorem Part.BayLaw.claimImport (law : s.BayLaw) (complete : s.array.scanComplete = true)
    (importing : s.array.directory[i].state = .importing) {bay : Bay} {t : TakeArray}
    (claimed : s.array.claim i = some (bay, t)) : Part.BayLaw { s with array := t } := by
  obtain ⟨erased, here, there, same⟩ := TakeArray.claim_spec claimed
  obtain ⟨recording, reserved⟩ := law.recorder_beside (by rw [importing]; exact nofun)
    (t := t) fun j ne => by rw [there j ne]; exact ⟨rfl, rfl⟩
  refine Part.Moves.bayLaw (s := s) (i := i) ?_ law
  exact {
    complete
    plain := by rw [importing]; exact nofun
    others := fun j ne => by rw [there j ne]; exact ⟨rfl, rfl⟩
    operation := by rw [same]
    suspended := by rw [same]
    dirty := by rw [same]
    line := by rw [same]; rfl
    clearing := by rw [same]
    scanComplete := by rw [same]
    scan := by rw [same]
    bays := fun b => by
      simp only [here, erased, List.count_append, List.count_cons, List.count_nil]
      omega
    empty := fun empty => by
      simp only [here, importing, reduceCtorEq] at empty
    recording
    reserved }

theorem Part.BayLaw.openRecording (law : s.BayLaw) (complete : s.array.scanComplete = true)
    (free : s.array.directory[i].state = .empty) {mask : Mask} {divisor : Nat}
    {modes : Vector LensMode 4} (trigger : RecorderTrigger) {bay : Bay} {t : TakeArray}
    (claimed : (s.array.openSlot i .recording mask divisor modes).claim i = some (bay, t)) :
    (s.openRecording i trigger t).BayLaw := by
  obtain ⟨erased, here, there, same⟩ := TakeArray.claim_spec claimed
  obtain ⟨state, bays, opened⟩ := s.array.openSlot_get i .recording mask divisor modes
  unfold Part.openRecording
  refine Part.Moves.bayLaw (s := s) (i := i) ?_ law
  exact {
    complete
    plain := by rw [free]; exact nofun
    others := fun j ne => by rw [there j ne, opened j ne]; exact ⟨rfl, rfl⟩
    operation := by rw [same]; rfl
    suspended := by rw [same]; rfl
    dirty := by rw [same]; rfl
    line := by rw [same]; rfl
    clearing := by rw [same]; rfl
    scanComplete := by rw [same]; rfl
    scan := by rw [same]; rfl
    bays := fun b => by
      have queue : (s.array.openSlot i .recording mask divisor modes).erased = s.array.erased := rfl
      rw [queue] at erased
      simp only [here, bays, erased, law.empty i free, List.nil_append, List.count_cons, List.count_nil]
      omega
    empty := fun empty => by
      simp only [here, state, reduceCtorEq] at empty
    recording := fun _ => ⟨i, rfl, by simp only [here, state]⟩
    reserved := fun _ some => nomatch some }

end

end Sys2Proof.Machine
end

section
set_option Elab.async false
/-! SETTLED. The law of the bays over the retires and the erases that complete. -/

namespace Sys2Proof.Machine

section
variable {s : Part} {i : DirIx} {bay : Bay} {w : Bool}

/-- R141: an erased bay joins the erased queue. -/
theorem Part.BayLaw.bayErased (law : s.BayLaw) (erase : s.array.operation = some (.erase bay)) :
    Part.BayLaw { s with array := s.array.bayErased bay } := by
  have shunts : s.Shunts { s with array := { s.array with operation := none, suspended := some bay } } :=
    Part.suspend_shunts erase (law.oneErase bay erase)
  have idle := shunts.bays law
  exact {
    once := fun complete b => by
      have once := idle.once complete b
      simp only [TakeArray.places, TakeArray.bayErased, List.count_append, Option.toList_some, Option.toList_none,
        law.oneErase bay erase] at once ⊢
      simp only [List.count_nil] at once ⊢
      omega
    oneErase := fun _ none => nomatch none
    empty := law.empty
    scanning := fun sc scan => by
      have none := (law.scanning sc scan).2.1
      rw [erase] at none
      exact nomatch none
    retire := idle.retire
    clear := idle.clear
    recording := law.recording
    reserved := law.reserved }

/-! ### Retires -/

/-- What is asked for besides the operation in progress, once that has completed, and one request of the lane more. -/
theorem TakeArray.retires_completed {t u : TakeArray} (idle : u.operation = none)
    (player : u.playerJobs = t.playerJobs) (recorder : u.recorderJobs = t.recorderJobs) {js : List Job}
    (lane : u.laneJobs = t.laneJobs ++ js) (plain : js.filter Job.isRetire = js) :
    u.retires = t.line.filter Job.isRetire ++ js := by
  rw [TakeArray.retires_idle idle]
  unfold TakeArray.line
  rw [player, recorder, lane, ← List.append_assoc, List.filter_append, plain]

/-- R149: a retire of a Take Erase has completed. -/
theorem Part.BayLaw.retired (law : s.BayLaw) (job : s.array.operation = some (.job (.retire i bay) w)) {u : TakeArray}
    (idle : u.operation = none) (player : u.playerJobs = s.array.playerJobs)
    (recorder : u.recorderJobs = s.array.recorderJobs) (suspended : u.suspended = s.array.suspended)
    (erased : u.erased = s.array.erased) (dirty : u.dirty = s.array.dirty ++ [bay])
    (flags : u.clearing = s.array.clearing ∧ u.scanComplete = s.array.scanComplete ∧ u.scan = s.array.scan)
    (there : ∀ k : DirIx, k ≠ i → u.directory[k] = s.array.directory[k])
    (here : u.directory[i].bays = s.array.directory[i].bays.filter fun b => decide (b ≠ bay))
    (state : u.directory[i].bays ≠ [] → u.directory[i].state = .retiring)
    (lane : u.laneJobs = s.array.laneJobs ++ u.directory[i].bays.head?.toList.map fun b => .retire i b) :
    Part.BayLaw { s with array := u } := by
  have asked : Job.retire i bay ∈ s.array.work := by
    unfold TakeArray.work
    rw [job]
    exact List.mem_cons_self
  obtain ⟨clearing, was, member, one⟩ := law.retire i bay asked
  obtain ⟨clear, complete, scan⟩ := flags
  have before := TakeArray.retires_job job rfl
  have after : u.retires = s.array.line.filter Job.isRetire ++
      u.directory[i].bays.head?.toList.map fun b => .retire i b :=
    TakeArray.retires_completed idle player recorder lane (by cases u.directory[i].bays <;> rfl)
  have others (j : Job) (inLine : j ∈ s.array.line.filter Job.isRetire) : j.slot ≠ i := by
    rw [TakeArray.retires_slot, before, List.filter_cons_of_pos (by simp [Job.slot]), List.length_cons] at one
    have none := List.length_eq_zero_iff.1 (Nat.succ.inj one)
    intro eq
    exact List.not_mem_nil (none ▸ List.mem_filter.2 ⟨inLine, decide_eq_true eq⟩)
  have ne {k : DirIx} {x : SlotState} (eq : s.array.directory[k].state = x) (other : x ≠ .retiring) : k ≠ i := by
    rintro rfl
    exact other (eq.symm.trans was)
  have old {j : Job} (now : j ∈ u.retires) : (j ∈ s.array.retires ∧ j.slot ≠ i) ∨
      ∃ b, u.directory[i].bays.head? = some b ∧ j = .retire i b := by
    rw [after, List.mem_append] at now
    refine now.imp (fun inLine => ⟨?_, others j inLine⟩) fun new => ?_
    · rw [before]
      exact List.mem_cons_of_mem _ inLine
    · simp only [List.mem_map, Option.mem_toList] at new
      obtain ⟨b, head, rfl⟩ := new
      exact ⟨b, head, rfl⟩
  exact {
    once := fun done b => by
      rw [complete] at done
      have once := law.once done b
      have slot := law.slot_count done member
      have change := TakeArray.held_count_slot (t := s.array) (u := u) (i := i) (fun k other => by rw [there k other]) b
      have erasing : u.erasing = [] := by unfold TakeArray.erasing; rw [idle]
      have erasing' : s.array.erasing = [] := by unfold TakeArray.erasing; rw [job]
      rw [here, count_without] at change
      simp only [TakeArray.places_eq, erasing, erasing', erased, dirty, suspended, List.count_append, List.count_nil]
        at once ⊢
      by_cases eq : b = bay
      · subst eq
        simp only [if_true, List.count_singleton_self] at change ⊢
        omega
      · rw [if_neg eq] at change
        rw [List.count_eq_zero (l := [bay]).2 (by simpa using eq)]
        omega
    oneErase := fun b erase => by
      rw [idle] at erase
      exact nomatch erase
    empty := fun k empty => by
      by_cases eq : k = i
      · subst eq
        refine Decidable.byContradiction fun some => ?_
        exact nomatch (state some).symm.trans empty
      · simp only [there k eq] at empty ⊢
        exact law.empty k empty
    scanning := fun sc some => by
      have none := (law.scanning sc (scan.symm.trans some)).2.1
      rw [job] at none
      exact nomatch none
    retire := fun k b work => by
      rw [TakeArray.retires_slot]
      dsimp only
      rcases old (TakeArray.mem_retires.2 ⟨work, rfl⟩) with ⟨was', other⟩ | ⟨b', head, eq⟩
      · obtain ⟨-, retiring, inSlot, single⟩ := law.retire k b (TakeArray.mem_retires.1 was').1
        have other : k ≠ i := other
        refine ⟨clear.trans clearing, by rw [there k other]; exact retiring, by rw [there k other]; exact inSlot, ?_⟩
        rw [TakeArray.retires_slot, before, List.filter_cons_of_neg (by simp [Job.slot, Ne.symm other])] at single
        rw [after, List.filter_append, List.length_append, single]
        cases u.directory[i].bays.head? <;> simp [Job.slot, Ne.symm other]
      · cases eq
        have inSlot := List.mem_of_mem_head? head
        refine ⟨clear.trans clearing, state (List.ne_nil_of_mem inSlot), inSlot, ?_⟩
        rw [after, List.filter_append, List.filter_eq_nil_iff.2 fun j inLine => by simpa using others j inLine, head]
        simp [Job.slot]
    clear := fun k b work => by
      rcases old (TakeArray.mem_retires.2 ⟨work, rfl⟩) with ⟨was', -⟩ | ⟨b', head, eq⟩
      · exact nomatch clearing.symm.trans (law.clear k b (TakeArray.mem_retires.1 was').1).1
      · exact nomatch eq
    recording := fun busy => by
      obtain ⟨done, k, slot, recording⟩ := law.recording busy
      exact ⟨complete.trans done, k, slot, by rw [there k (ne recording nofun)]; exact recording⟩
    reserved := fun b some => by
      obtain ⟨busy, inSlot⟩ := law.reserved b some
      obtain ⟨-, k, slot, recording⟩ := law.recording (by rcases busy with h | h <;> rw [h] <;> exact nofun)
      refine ⟨busy, fun k' slot' => ?_⟩
      obtain rfl : k = k' := Option.some.inj (slot.symm.trans slot')
      rw [there k (ne recording nofun)]
      exact inSlot k slot }

/-- The slot of a retire of a Take Erase, and what it asks for next. -/
theorem TakeArray.retired_spec (t : TakeArray) (i : DirIx) (bay : Bay) :
    (t.retired i bay).directory[i].bays = (t.directory[i].bays.filter fun b => decide (b ≠ bay)) ∧
    ((t.retired i bay).directory[i].bays ≠ [] → (t.retired i bay).directory[i].state = t.directory[i].state) ∧
    (∀ k : DirIx, k ≠ i → (t.retired i bay).directory[k] = t.directory[k]) ∧
    (t.retired i bay).laneJobs =
      t.laneJobs ++ (t.retired i bay).directory[i].bays.head?.toList.map fun b => .retire i b := by
  unfold TakeArray.retired
  dsimp only
  split
  · next left =>
    have here := TakeArray.setSlot_same { t with dirty := t.dirty ++ [bay] } i DirectorySlot.reset
    have there (k : DirIx) (ne : k ≠ i) :=
      TakeArray.setSlot_other { t with dirty := t.dirty ++ [bay] } DirectorySlot.reset ne
    rw [here, left]
    refine ⟨rfl, fun some => absurd rfl some, there, ?_⟩
    exact (List.append_nil _).symm
  · next next rest left =>
    have here := TakeArray.setSlot_same { t with dirty := t.dirty ++ [bay] } i
      { t.directory[i] with bays := next :: rest }
    have there (k : DirIx) (ne : k ≠ i) := TakeArray.setSlot_other { t with dirty := t.dirty ++ [bay] }
      { t.directory[i] with bays := next :: rest } ne
    rw [left]
    dsimp only
    rw [here]
    exact ⟨rfl, fun _ => rfl, there, rfl⟩

/-- What a retire of a Take Erase leaves alone. -/
theorem TakeArray.retired_same (t : TakeArray) (i : DirIx) (bay : Bay) : t.retired i bay = { t with
    directory := (t.retired i bay).directory, laneJobs := (t.retired i bay).laneJobs, dirty := t.dirty ++ [bay] } := by
  unfold TakeArray.retired
  dsimp only
  split <;> rfl

theorem Part.BayLaw.retireDone (law : s.BayLaw) (job : s.array.operation = some (.job (.retire i bay) w)) :
    (Part.clearOperation { s with array := s.array.retired i bay }).BayLaw := by
  obtain ⟨here, state, there, lane⟩ := s.array.retired_spec i bay
  have same := s.array.retired_same i bay
  have asked : Job.retire i bay ∈ s.array.work := by
    unfold TakeArray.work
    rw [job]
    exact List.mem_cons_self
  obtain ⟨-, was, -, -⟩ := law.retire i bay asked
  refine law.retired job rfl ?_ ?_ ?_ ?_ ?_ ⟨?_, ?_, ?_⟩ there here (fun some => (state some).trans was) lane
  all_goals
    dsimp only
    rw [same]

/-! ### The clear -/

/-- R152: the last retire of a clear has completed: the bays of the Retiring slots are dirty. -/
theorem Part.BayLaw.endClear (law : s.BayLaw) (ended : s.array.scan = none)
    (plain : s.array.retires = []) : Part.BayLaw { s with array := s.array.endClear } := by
  have slots (k : DirIx) : s.array.endClear.directory[k] =
      if s.array.directory[k].state = .retiring then DirectorySlot.reset else s.array.directory[k] := by
    simp [TakeArray.endClear]
  have none : s.array.endClear.retires = [] :=
    (TakeArray.retires_congr rfl rfl rfl rfl).trans plain
  have still {k : DirIx} (recording : s.array.directory[k].state = .recording) :
      s.array.endClear.directory[k] = s.array.directory[k] := by
    rw [slots, if_neg (by rw [recording]; exact nofun)]
  exact {
    once := fun complete b => by
      have once := law.once complete b
      have freed : ((List.finRange 64).flatMap fun k : DirIx =>
          if s.array.directory[k].state = .retiring then s.array.directory[k].bays else []).count b +
          s.array.endClear.held.count b = s.array.held.count b := by
        rw [TakeArray.held_count, TakeArray.held_count, List.count_flatMap, sum_map_add]
        refine congrArg List.sum (List.map_congr_left fun k _ => ?_)
        dsimp only [Function.comp]
        rw [slots]
        split
        · exact Nat.add_zero _
        · exact Nat.zero_add _
      have dirty : s.array.endClear.dirty = s.array.dirty ++ (List.finRange 64).flatMap fun k : DirIx =>
          if s.array.directory[k].state = .retiring then s.array.directory[k].bays else [] := rfl
      have erasing : s.array.endClear.erasing = s.array.erasing := rfl
      have rest : s.array.endClear.erased = s.array.erased ∧ s.array.endClear.suspended = s.array.suspended := ⟨rfl, rfl⟩
      rw [TakeArray.places_eq] at once ⊢
      rw [dirty, erasing, rest.1, rest.2]
      simp only [List.count_append] at once ⊢
      omega
    oneErase := law.oneErase
    empty := fun k empty => by
      simp only [slots] at empty ⊢
      split at empty
      · next retiring => rw [if_pos retiring]; rfl
      · next other => rw [if_neg other]; exact law.empty k empty
    scanning := fun sc scan => nomatch ended.symm.trans scan
    retire := fun k b work => by
      have member := TakeArray.mem_retires.2 ⟨work, rfl⟩
      rw [none] at member
      exact absurd member List.not_mem_nil
    clear := fun k b work => by
      have member := TakeArray.mem_retires.2 ⟨work, rfl⟩
      rw [none] at member
      exact absurd member List.not_mem_nil
    recording := fun busy => by
      obtain ⟨done, k, slot, recording⟩ := law.recording busy
      exact ⟨done, k, slot, (congrArg DirectorySlot.state (still recording)).trans recording⟩
    reserved := fun b some => by
      obtain ⟨busy, inSlot⟩ := law.reserved b some
      obtain ⟨-, k, slot, recording⟩ := law.recording (by rcases busy with h | h <;> rw [h] <;> exact nofun)
      refine ⟨busy, fun k' slot' => ?_⟩
      obtain rfl : k = k' := Option.some.inj (slot.symm.trans slot')
      rw [still recording]
      exact inSlot k slot }

/-- R152: a retire of a clear has completed. -/
theorem Part.BayLaw.clearRetireDone (law : s.BayLaw)
    (job : s.array.operation = some (.job (.clearRetire i bay) w)) :
    (Part.clearOperation { s with array := s.array.clearRetired i }).BayLaw := by
  have asked : Job.clearRetire i bay ∈ s.array.work := by
    unfold TakeArray.work
    rw [job]
    exact List.mem_cons_self
  obtain ⟨clearing, one⟩ := law.clear i bay asked
  have line : s.array.line.filter Job.isRetire = [] := by
    have all : s.array.retires.length = 1 := one
    rw [TakeArray.retires_job job rfl] at all
    exact List.length_eq_zero_iff.1 (Nat.succ.inj all)
  have shunts : s.Shunts s.clearOperation := {
    places := fun b => by simp [TakeArray.places, Part.clearOperation, job]
    oneErase := fun _ _ none => nomatch none
    scanning := fun _ idle => by rw [job] at idle; exact nomatch idle
    retires := by
      rw [TakeArray.retires_idle rfl]
      exact line ▸ List.nil_sublist _ }
  have idle := shunts.bays law
  have ended : s.array.scan = Option.none := by
    cases scan : s.array.scan with
    | none => rfl
    | some sc =>
      have free := (law.scanning sc scan).2.1
      rw [job] at free
      exact nomatch free
  have none : s.clearOperation.array.retires = [] := (TakeArray.retires_idle rfl).trans line
  unfold TakeArray.clearRetired
  split
  · next p _ =>
    have lane : TakeArray.retires { s.clearOperation.array with
        laneJobs := s.array.laneJobs ++ [.clearRetire p.1 p.2] } = [.clearRetire p.1 p.2] := by
      have eq := TakeArray.retires_lane s.clearOperation.array [.clearRetire p.1 p.2]
      rw [none] at eq
      exact eq
    exact {
      once := idle.once
      oneErase := idle.oneErase
      empty := idle.empty
      scanning := fun sc scan => nomatch ended.symm.trans scan
      retire := fun k b work => by
        have member : Job.retire k b ∈ [Job.clearRetire p.1 p.2] :=
          Eq.mp (congrArg (Job.retire k b ∈ ·) lane) (TakeArray.mem_retires.2 ⟨work, rfl⟩)
        simp at member
      clear := fun k b work => ⟨clearing, congrArg List.length lane⟩
      recording := idle.recording
      reserved := idle.reserved }
  · exact idle.endClear ended none

/-- A read or a program that completes is asked for no more. -/
theorem Part.clearOperation_shunts {j : Job} (job : s.array.operation = some (.job j w)) : s.Shunts s.clearOperation where
  places := fun b => by simp [TakeArray.places, Part.clearOperation, job]
  oneErase := fun _ _ none => nomatch none
  scanning := fun _ idle => by rw [job] at idle; exact nomatch idle
  retires := by
    rw [TakeArray.retires_idle rfl, TakeArray.retires_eq]
    exact List.sublist_append_right _ _

end

end Sys2Proof.Machine
end

section
set_option Elab.async false
/-! SETTLED. What a piece of the part's work can do: the laws that it keeps and the fields that it leaves alone, as one
relation per block, each holding of every function of its block and composed by `trans`. -/

namespace Sys2Proof.Machine

/-! ### The relations -/

/-- Outside Safe-Off the part mode is Run. -/
def Part.InRun (s : Part) : Prop := s.seq.state ≠ .safeOff → s.lane.mode = .run

/-- Nothing is fetched, approached, played or recorded. -/
def Part.Quiet (s : Part) : Prop := s.player.state.idle = true ∧ s.recorder.state.quiet = true

/-- A piece of work from s to t keeps the laws of the part. A field of an update that a law does not look at
fills itself in. A piece that is not settled may leave the array's controller with a choice to make. -/
structure Keeps (s t : Part) (settled : Prop := True) : Prop where
  memory : s.array.memory.wf = true → t.array.memory.wf = true := by exact fun h => h
  late : s.gateway.lateCount ≤ 255 → t.gateway.lateCount ≤ 255 := by exact fun h => h
  bad : s.gateway.badCount ≤ 255 → t.gateway.badCount ≤ 255 := by exact fun h => h
  controllerMiss : s.gateway.controllerMiss ≤ 255 → t.gateway.controllerMiss ≤ 255 := by exact fun h => h
  driveMiss : s.gateway.driveMiss ≤ 255 → t.gateway.driveMiss ≤ 255 := by exact fun h => h
  dropped : s.lane.dropped ≤ 255 → t.lane.dropped ≤ 255 := by exact fun h => h
  phase : s.seq.phaseCount ≤ 65535 → t.seq.phaseCount ≤ 65535 := by exact fun h => h
  missed : s.recorder.missed ≤ 65535 → t.recorder.missed ≤ 65535 := by exact fun h => h
  autoPoll : s.player.autoCount ≤ 65535 → t.player.autoCount ≤ 65535 := by exact fun h => h
  scale : s.ScaleInRange → t.ScaleInRange := by exact fun h => ⟨h.1, h.2, h.3⟩
  inRun : s.InRun → t.InRun := by exact fun h => h
  chain : s.ChainLaw → t.ChainLaw := by exact fun h => ⟨h.1, h.2, h.3⟩
  recovery : s.RecoveryLaw → t.RecoveryLaw := by exact fun h => h
  play : s.PlayLaw → t.PlayLaw := by exact fun h => h
  window : s.InRun → s.PlayLaw → s.WindowLaw → t.WindowLaw := by
    exact fun _ _ h => ⟨h.1, h.2, h.3, h.4, h.5, h.6⟩
  bays : s.BayLaw → t.BayLaw := by exact fun h => ⟨h.1, h.2, h.3, h.4, h.5, h.6, h.7, h.8⟩
  loose : s.LooseLaw → t.LooseLaw := by exact fun h => ⟨h.1, h.2⟩
  work : settled → s.WorkLaw → t.WorkLaw := by exact fun _ h => ⟨h.1, h.2, h.3, h.4⟩

/-- Work of the blocks behind the gateway: the stop sequencer, the recorder, the player and the array's
controller. -/
structure StopWork (s t : Part) (settled : Prop := True) : Prop extends Keeps s t settled where
  now : t.now = s.now := by exact rfl
  gateway : t.gateway = s.gateway := by exact rfl
  lens : t.lens = s.lens := by exact rfl
  sync : t.sync = s.sync := by exact rfl
  portA : t.portA = s.portA := by exact rfl
  portB : t.portB = s.portB := by exact rfl
  lane : ∃ tickets, Answered tickets s.lane t.lane := by exact ⟨[], Answered.refl _ _⟩
  axes : t.shaper.axes = s.shaper.axes := by exact rfl
  timing : t.shaper.timing = s.shaper.timing := by exact rfl
  sigma : t.shaper.sigma = s.shaper.sigma := by exact rfl
  zoneBut : t.zone = { s.zone with recovery := t.zone.recovery } := by exact rfl
  memoryEq : t.array.memory = s.array.memory := by exact rfl
  freeze : t.array.freeze = s.array.freeze := by exact rfl
  clearing : t.array.clearing = s.array.clearing := by exact rfl
  scanComplete : t.array.scanComplete = s.array.scanComplete := by exact rfl
  scan : t.array.scan = s.array.scan := by exact rfl
  serial : t.array.serial = s.array.serial := by exact rfl
  cueSlots : ∀ i : CueIx, t.player.cues[i].slot = s.player.cues[i].slot := by exact fun _ => rfl
  autoInterval : t.player.autoInterval = s.player.autoInterval := by exact rfl

/-- Work of the recorder, the player and the controller leaves the stop sequencer and the zone monitor alone. -/
structure RecorderWork (s t : Part) (settled : Prop := True) : Prop extends StopWork s t settled where
  seq : t.seq = s.seq := by exact rfl
  zone : t.zone = s.zone := by exact rfl

/-- Work of the player and the controller leaves the recorder, the directory and the erased queue alone. -/
structure ArrayWork (s t : Part) (settled : Prop := True) : Prop extends RecorderWork s t settled where
  recorder : t.recorder = s.recorder := by exact rfl
  directory : t.array.directory = s.array.directory := by exact rfl
  erased : t.array.erased = s.array.erased := by exact rfl

section
variable {s t u : Part} {settled : Prop}

theorem Keeps.refl (s : Part) : Keeps s s settled := {}

theorem Keeps.trans (h : Keeps s t settled) (k : Keeps t u settled) : Keeps s u settled where
  memory := k.memory ∘ h.memory
  late := k.late ∘ h.late
  bad := k.bad ∘ h.bad
  controllerMiss := k.controllerMiss ∘ h.controllerMiss
  driveMiss := k.driveMiss ∘ h.driveMiss
  dropped := k.dropped ∘ h.dropped
  phase := k.phase ∘ h.phase
  missed := k.missed ∘ h.missed
  autoPoll := k.autoPoll ∘ h.autoPoll
  scale := k.scale ∘ h.scale
  inRun := k.inRun ∘ h.inRun
  chain := k.chain ∘ h.chain
  recovery := k.recovery ∘ h.recovery
  play := k.play ∘ h.play
  window := fun run play window => k.window (h.inRun run) (h.play play) (h.window run play window)
  bays := k.bays ∘ h.bays
  loose := k.loose ∘ h.loose
  work := fun settled => k.work settled ∘ h.work settled

/-- Work of which it is not asked that the controller is left no choice. -/
theorem Keeps.loosen (h : Keeps s t settled) : Keeps s t False := { h with work := False.elim }

/-- Work after which the controller has no choice to make. -/
theorem Keeps.settle (h : Keeps s t settled) (done : s.LooseLaw → t.WorkLaw) : Keeps s t :=
  { h with work := fun _ law => done law.loose }

theorem Answered.exists_trans {l m n : ServiceLane} :
    (∃ tickets, Answered tickets l m) → (∃ tickets, Answered tickets m n) →
      ∃ tickets, Answered tickets l n
  | ⟨ts, h⟩, ⟨us, k⟩ => ⟨ts ++ us, (h.mono fun _ hx => List.mem_append_left _ hx).trans
      (fun _ hx => List.mem_append_right ts hx) k⟩

theorem StopWork.refl (s : Part) : StopWork s s settled := {}

theorem StopWork.trans (h : StopWork s t settled) (k : StopWork t u settled) : StopWork s u settled where
  toKeeps := h.toKeeps.trans k.toKeeps
  now := k.now.trans h.now
  gateway := k.gateway.trans h.gateway
  lens := k.lens.trans h.lens
  sync := k.sync.trans h.sync
  portA := k.portA.trans h.portA
  portB := k.portB.trans h.portB
  lane := Answered.exists_trans h.lane k.lane
  axes := k.axes.trans h.axes
  timing := k.timing.trans h.timing
  sigma := k.sigma.trans h.sigma
  zoneBut := by rw [k.zoneBut, h.zoneBut]
  memoryEq := k.memoryEq.trans h.memoryEq
  freeze := k.freeze.trans h.freeze
  clearing := k.clearing.trans h.clearing
  scanComplete := k.scanComplete.trans h.scanComplete
  scan := k.scan.trans h.scan
  serial := k.serial.trans h.serial
  cueSlots := fun i => (k.cueSlots i).trans (h.cueSlots i)
  autoInterval := k.autoInterval.trans h.autoInterval

theorem RecorderWork.refl (s : Part) : RecorderWork s s settled := {}

theorem RecorderWork.trans (h : RecorderWork s t settled) (k : RecorderWork t u settled) : RecorderWork s u settled where
  toStopWork := h.toStopWork.trans k.toStopWork
  seq := k.seq.trans h.seq
  zone := k.zone.trans h.zone

theorem ArrayWork.refl (s : Part) : ArrayWork s s settled := {}

theorem ArrayWork.trans (h : ArrayWork s t settled) (k : ArrayWork t u settled) : ArrayWork s u settled where
  toRecorderWork := h.toRecorderWork.trans k.toRecorderWork
  recorder := k.recorder.trans h.recorder
  directory := k.directory.trans h.directory
  erased := k.erased.trans h.erased

theorem StopWork.loosen (h : StopWork s t settled) : StopWork s t False := { h with toKeeps := h.toKeeps.loosen }

theorem RecorderWork.loosen (h : RecorderWork s t settled) : RecorderWork s t False :=
  { h with toStopWork := h.toStopWork.loosen }

theorem ArrayWork.loosen (h : ArrayWork s t settled) : ArrayWork s t False :=
  { h with toRecorderWork := h.toRecorderWork.loosen }

theorem StopWork.settle (h : StopWork s t settled) (done : s.LooseLaw → t.WorkLaw) : StopWork s t :=
  { h with toKeeps := h.toKeeps.settle done }

theorem RecorderWork.settle (h : RecorderWork s t settled) (done : s.LooseLaw → t.WorkLaw) : RecorderWork s t :=
  { h with toStopWork := h.toStopWork.settle done }

theorem ArrayWork.settle (h : ArrayWork s t settled) (done : s.LooseLaw → t.WorkLaw) : ArrayWork s t :=
  { h with toRecorderWork := h.toRecorderWork.settle done }

theorem StopWork.mode (h : StopWork s t settled) : t.lane.mode = s.lane.mode := by
  obtain ⟨_, lane⟩ := h.lane
  exact lane.mode

end

/-! ### When something plays -/

theorem Part.PlayLaw.quiet {s : Part} (law : s.PlayLaw) (h : s.seq.state ≠ .running) : s.Quiet := law h

theorem Part.PlayLaw.of_running {s : Part} (h : s.seq.state = .running) : s.PlayLaw := fun n => absurd h n

theorem Part.PlayLaw.of_quiet {s : Part} (h : s.Quiet) : s.PlayLaw := fun _ => h

/-- A player that has a cue in hand and has not halted plays in Running only. -/
theorem Part.PlayLaw.running_of_busy {s : Part} (law : s.PlayLaw) (busy : s.player.state.idle = false) :
    s.seq.state = .running :=
  Decidable.byContradiction fun h => Bool.false_ne_true (busy.symm.trans (law.quiet h).1)

/-! ### Changes of source -/

/-- A channel that keeps its shaped state and at most takes another source than Track; on Stop its latched
deceleration stays or is at least `amax`. -/
structure Channel.Turned (a b : Channel) (amax : Nat) (moving : Prop) : Prop where
  p : b.p = a.p
  v : b.v = a.v
  stop : b.source = .stop → (a.source = .stop ∧ b.rampDecel = a.rampDecel) ∨ amax ≤ b.rampDecel
  source : b.source = a.source ∨ (b.source ≠ .track ∧ (a.source ≠ .track ∨ moving))

section
variable {a b c : Channel} {amax : Nat} {moving : Prop}

theorem Channel.Turned.refl (a : Channel) (amax : Nat) (moving : Prop) : a.Turned a amax moving :=
  ⟨rfl, rfl, fun h => .inl ⟨h, rfl⟩, .inl rfl⟩

theorem Channel.Turned.trans (h : a.Turned b amax moving) (k : b.Turned c amax moving) :
    a.Turned c amax moving where
  p := k.p.trans h.p
  v := k.v.trans h.v
  stop := fun e => by
    rcases k.stop e with ⟨was, same⟩ | enough
    · rw [same]; exact h.stop was
    · exact .inr enough
  source := by
    rcases h.source with h1 | ⟨h1, h2⟩ <;> rcases k.source with k1 | ⟨k1, k2⟩
    · exact .inl (k1.trans h1)
    · exact .inr ⟨k1, h1 ▸ k2⟩
    · exact .inr ⟨k1 ▸ h1, h2⟩
    · exact .inr ⟨k1, h2⟩

/-- A change to a source on which the channel is shaped. -/
theorem Channel.Turned.intro (p : b.p = a.p) (v : b.v = a.v) (shaped : b.source.shaped = true)
    (h : a.source ≠ .track ∨ moving) : a.Turned b amax moving where
  p := p
  v := v
  stop := fun e => by simp [e, Source.shaped] at shaped
  source := .inr ⟨fun e => by simp [e, Source.shaped] at shaped, h⟩

end

theorem Slot.motion_or_lens (c : Slot) : (∃ a : Axis, c = Axis.slot a) ∨ ∃ l : LensIx, c = LensIx.slot l := by
  rcases Nat.lt_or_ge c.val 8 with h | h
  · exact .inl ⟨⟨c.val, h⟩, rfl⟩
  · exact .inr ⟨⟨c.val - 8, by omega⟩, Fin.ext (by simp only [LensIx.slot]; omega)⟩

/-- Outside Safe-Off a present channel, but a lens channel in Off, is not on Track. -/
theorem Part.WindowLaw.moving {s : Part} (law : s.WindowLaw) (run : s.InRun) (moving : s.seq.state ≠ .safeOff)
    {c : Slot} (present : s.shaper.axes[c].present = true)
    (driven : ∀ l : LensIx, c = LensIx.slot l → s.lens.chans[l].mode ≠ .off) :
    s.shaper.chans[c].source ≠ .track := by
  rcases Slot.motion_or_lens c with ⟨a, rfl⟩ | ⟨l, rfl⟩
  · exact fun track => moving ((law.motion a present).1 track)
  · exact law.lens l (run moving) present (driven l rfl)

/-- The window law does not look past the shaped state and the source of the channels. -/
theorem Part.WindowLaw.turned {s t : Part} (law : s.WindowLaw) (run : s.InRun)
    (axes : t.shaper.axes = s.shaper.axes) (lens : t.lens = s.lens) (mode : t.lane.mode = s.lane.mode)
    (state : t.seq.state = .safeOff ↔ s.seq.state = .safeOff)
    (chans : ∀ c : Slot, s.shaper.chans[c].Turned t.shaper.chans[c] s.shaper.axes[c].amax (s.seq.state ≠ .safeOff)) :
    t.WindowLaw := by
  have source {c : Slot} (h : t.shaper.chans[c].source ≠ s.shaper.chans[c].source) :
      t.shaper.chans[c].source ≠ .track ∧
        (s.shaper.chans[c].source ≠ .track ∨ s.seq.state ≠ .safeOff) :=
    (chans c).source.resolve_left h
  constructor
  case sane => rw [axes]; exact law.sane
  case setup =>
    intro h c
    rw [mode] at h
    have track := law.setup h c
    refine Decidable.byContradiction fun other => ?_
    obtain ⟨-, was | moving⟩ := source (c := c) (by rw [track]; exact other)
    · exact was track
    · simp [run moving] at h
  case motion =>
    intro a present
    rw [axes] at present
    rw [state, ← law.motion a present]
    by_cases same : t.shaper.chans[Axis.slot a].source = s.shaper.chans[Axis.slot a].source
    · rw [same]
    · obtain ⟨now, was⟩ := source same
      refine ⟨fun h => absurd h now, fun h => ?_⟩
      exact absurd ((law.motion a present).1 h) (was.resolve_left (fun k => k h))
  case lens =>
    intro l h present off
    rw [axes] at present
    rw [lens] at off
    rw [mode] at h
    by_cases same : t.shaper.chans[LensIx.slot l].source = s.shaper.chans[LensIx.slot l].source
    · rw [same]; exact law.lens l h present off
    · exact (source same).1
  case inside =>
    intro c present moves driven
    rw [axes] at present ⊢
    rw [lens] at driven
    have was : s.shaper.chans[c].source ≠ .track := by
      by_cases same : t.shaper.chans[c].source = s.shaper.chans[c].source
      · rwa [← same]
      · rcases (source same).2 with was | moving
        · exact was
        · exact law.moving run moving present driven
    have inside := law.inside c present was driven
    unfold Channel.InWindow at inside ⊢
    rwa [(chans c).p, (chans c).v]
  case ramp =>
    intro c present stop
    rw [axes] at present ⊢
    rcases (chans c).stop stop with ⟨was, same⟩ | enough
    · rw [same]
      exact law.ramp c present was
    · exact enough

@[simp] theorem Shaper.mapChans_get (sh : Shaper) (f : Slot → Channel → Channel) (c : Slot) :
    (sh.mapChans f).chans[c] = f c sh.chans[c] := by
  simp [Shaper.mapChans]

end Sys2Proof.Machine
end

section
set_option Elab.async false
/-! SETTLED. The work of the player and of the take array's controller, function by function. -/

namespace Sys2Proof.Machine

/-! ### The player -/

section
variable {s : Part}

/-- Reads withdrawn, and what else of the player does not matter. -/
theorem Keeps.withdrawn {u : Part} (array : u.array = s.array.withdrawReads) (recorder : u.recorder = s.recorder) :
    (s.BayLaw → u.BayLaw) ∧ (s.LooseLaw → u.LooseLaw) ∧ (s.WorkLaw → u.WorkLaw) := by
  have reads : s.Reads u := ⟨array ▸ s.array.withdrawReads_reads, recorder⟩
  exact ⟨reads.bays, reads.loose, fun law => law.withdrawn array⟩

theorem Part.dropReads_work (s : Part) {settled : Prop} : ArrayWork s s.dropReads settled := by
  obtain ⟨bays, loose, work⟩ := Keeps.withdrawn (s := s) (u := s.dropReads) rfl rfl
  exact { bays, loose, work := fun _ => work }

theorem Part.failCue_work (s : Part) (status : CueStatus) {settled : Prop} : ArrayWork s (s.failCue status) settled := by
  refine s.dropReads_work.trans (t := s.dropReads) ?_
  exact { cueSlots := fun i => Player.returnCue_slot s.dropReads.player status i }

theorem Part.judgeTake_autoCount {p : Player} (h : s.judgeTake = .ok p) :
    p.autoCount = s.player.autoCount := by
  unfold Part.judgeTake at h
  dsimp only at h
  split at h
  · cases h
  · split at h
    · cases h
    · split at h
      · cases h; rfl
      · cases h

theorem Part.fetchRounds_work (n : Nat) (s : Part) (running : s.PlayLaw → s.seq.state = .running) :
    ArrayWork s (Part.fetchRounds n s) False := by
  induction n generalizing s with
  | zero => exact ArrayWork.refl s
  | succ n ih =>
    unfold Part.fetchRounds
    split
    · exact { play := fun law => .of_running (running law), autoPoll := fun _ => Nat.zero_le _ }
    · split
      · exact (s.failCue_work _).trans (ih _ running)
      · rename_i p judged
        obtain ⟨cues, interval⟩ := Part.judgeTake_ok judged
        have count : p.autoCount = s.player.autoCount := Part.judgeTake_autoCount judged
        exact { play := fun law => .of_running (running law), autoPoll := fun h => count ▸ h,
                cueSlots := fun i => by simp only [cues], autoInterval := interval
                bays := (s.addRead_reads _ _ _).bays, loose := (s.addRead_reads _ _ _).loose, work := False.elim }

theorem Part.enterFetching_work (s : Part) (running : s.PlayLaw → s.seq.state = .running) :
    ArrayWork s s.enterFetching False := Part.fetchRounds_work 17 s running

theorem Part.enterApproaching_work (s : Part) {settled : Prop} (running : s.PlayLaw → s.seq.state = .running) :
    ArrayWork s s.enterApproaching settled where
  play := fun law => .of_running (running law)
  window := fun run play law => by
    have moving : s.seq.state ≠ .safeOff := by simp [running play]
    refine law.turned run rfl rfl rfl Iff.rfl fun c => ?_
    simp only [Part.enterApproaching, Shaper.mapChans_get]
    split
    · exact .intro rfl rfl rfl (.inr moving)
    · exact .refl _ _ _

theorem Part.finishFetch_work (s : Part) (st : Standing) (running : s.PlayLaw → s.seq.state = .running) :
    ArrayWork s (s.finishFetch st) False := by
  unfold Part.finishFetch
  dsimp only
  split
  · exact ArrayWork.trans (t := { s with freeCount := s.freeAfter st, player := { s.player with
        held := s.takeValues st s.player.tauStart
        prefetch := s.player.prefetch.take 4
        haltReason := .none
        goLatch := false
        resumed := false } }) {} (Part.enterApproaching_work _ running)
  · exact ArrayWork.trans (t := { s with freeCount := s.freeAfter st }) {}
      ((Part.failCue_work _ _).trans (Part.enterFetching_work _ running))

theorem Part.dropBefore_work (s : Part) (p : Player) (k : Option WalkedPage)
    {settled : Prop} (work : ArrayWork s { s with player := p } settled) :
    ArrayWork s { s with player := p.dropBefore k } settled := by
  cases k with
  | none => exact work
  | some w => exact work.trans {}

theorem Part.readMore_work (s : Part) (p : Player) (k : Option WalkedPage) (slot : DirIx) (page : Nat)
    (work : ArrayWork s { s with player := p } False) :
    ArrayWork s { s with player := p.dropBefore k, array := s.array.addRead slot page } False := by
  have reads := Part.addRead_reads { s with player := p.dropBefore k } (p.dropBefore k) slot page
  exact (s.dropBefore_work p k work).trans { bays := reads.bays, loose := reads.loose, work := False.elim }

theorem Part.fetchArrived_work (s : Part) (page : Nat) (data : Option (List Byte))
    (running : s.PlayLaw → s.seq.state = .running) : ArrayWork s (s.fetchArrived page data) False := by
  unfold Part.fetchArrived
  split
  · exact (s.failCue_work _).trans (Part.enterFetching_work _ running)
  · split
    · exact (s.failCue_work _).trans (Part.enterFetching_work _ running)
    · dsimp only
      split
      · exact (s.dropBefore_work _ _ {}).trans (Part.finishFetch_work _ _ fun law => running (by simpa [Part.PlayLaw] using law))
      · exact s.readMore_work _ _ _ _ {}

theorem Part.fillRounds_work (n : Nat) (s : Part) : ArrayWork s (Part.fillRounds n s) False := by
  induction n generalizing s with
  | zero => exact ArrayWork.refl s
  | succ n ih =>
    unfold Part.fillRounds
    split
    · have reads := s.addRead_reads s.player s.player.current.slot s.nextPrefetch
      exact ArrayWork.trans { bays := reads.bays, loose := reads.loose, work := False.elim } (ih _)
    · exact ArrayWork.refl s

theorem Part.fillPrefetch_work (s : Part) : ArrayWork s s.fillPrefetch False := Part.fillRounds_work 4 s

theorem Part.enterPlaying_work (s : Part) (busy : s.player.state.idle = false) : ArrayWork s s.enterPlaying where
  play := fun law => .of_running (law.running_of_busy busy)
  cueSlots := s.enterPlaying_same.cueSlots

theorem Part.takeLatchedGo_work (s : Part) : ArrayWork s s.takeLatchedGo := by
  unfold Part.takeLatchedGo
  split
  · rename_i h
    exact s.enterPlaying_work (by rw [h.1]; rfl)
  · exact ArrayWork.refl s

theorem Part.prefetchArrived_work (s : Part) (page : Nat) (data : Option (List Byte)) :
    ArrayWork s (s.prefetchArrived page data) :=
  ArrayWork.trans {} (Part.takeLatchedGo_work _)

theorem Part.playerReadDone_work (s : Part) (page : Nat) (data : Option (List Byte)) :
    ArrayWork s (s.playerReadDone page data) False := by
  unfold Part.playerReadDone
  split
  case h_1 fetching => exact s.fetchArrived_work page data fun law => law.running_of_busy (by rw [fetching]; rfl)
  case h_2 | h_3 => exact ArrayWork.refl s
  all_goals exact (s.prefetchArrived_work page data).loosen

theorem Part.makeStep_work (s : Part) (tau : Nat) (st : Standing) (busy : s.player.state.idle = false) :
    ArrayWork s (s.makeStep tau st) False := by
  unfold Part.makeStep
  refine ArrayWork.trans ?_ (Part.fillPrefetch_work _)
  refine ArrayWork.trans (t := { s with freeCount := s.freeAfter st }) {} ?_
  refine Part.dropBefore_work _ _ _ { play := fun law => .of_running (law.running_of_busy busy) }

theorem Part.liveMarkTaken_work (s : Part) (phase : Nat) : ArrayWork s (s.liveMarkTaken phase) := by
  unfold Part.liveMarkTaken
  dsimp only
  split
  · exact ArrayWork.refl s
  · exact {}

theorem Part.markToPlayer_work (s : Part) (phase : Nat) : ArrayWork s (s.markToPlayer phase) := by
  unfold Part.markToPlayer
  split
  · exact s.liveMarkTaken_work phase
  · split
    · rename_i h
      exact (s.enterPlaying_work (by rw [h.1]; rfl)).trans (Part.liveMarkTaken_work _ _)
    · exact ArrayWork.refl s

/-- A part with every played channel parked keeps the laws while the crane is out of Safe-Off. -/
theorem Part.parkPlayed_work (s : Part) (moving : s.PlayLaw → s.seq.state ≠ .safeOff) :
    ArrayWork s { s with shaper := s.parkPlayed } where
  window := fun run play law => by
    refine law.turned run rfl rfl rfl Iff.rfl fun c => ?_
    simp only [Part.parkPlayed, Shaper.mapChans_get]
    split
    · split
      · exact .intro rfl rfl rfl (.inr (moving play))
      · exact .refl _ _ _
    · exact .refl _ _ _

theorem Part.parkPlayedHere_work (s : Part) : ArrayWork s { s with shaper := s.parkPlayedHere } where
  window := fun run _ law => by
    refine law.turned run rfl rfl rfl Iff.rfl fun c => ?_
    simp only [Part.parkPlayedHere, Shaper.mapChans_get]
    split
    · rename_i h
      simp only [Bool.and_eq_true, decide_eq_true_eq] at h
      exact .intro rfl rfl rfl (.inl (by rw [h.2]; exact Source.noConfusion))
    · exact .refl _ _ _

theorem Part.endCue_work (s : Part) (busy : s.player.state.idle = false) : ArrayWork s s.endCue False :=
  (s.parkPlayed_work fun law => by simp [law.running_of_busy busy]).loosen.trans
    ((Part.failCue_work _ _).trans (Part.enterFetching_work _ fun law => law.running_of_busy busy))

/-- A player told that nothing may play, or stopped, is left idle. -/
theorem Part.playerStopNotice_work (s : Part) : ArrayWork s s.playerStopNotice := by
  unfold Part.playerStopNotice
  dsimp only
  split
  case h_1 | h_2 | h_3 => exact ArrayWork.refl s
  case h_4 => exact s.dropReads_work.trans { play := fun law n => ⟨rfl, (law n).2⟩ }
  case h_8 => exact (s.failCue_work _).trans { play := fun law n => ⟨rfl, (law n).2⟩ }
  all_goals exact { play := fun law n => ⟨rfl, (law n).2⟩ }

theorem Part.returnAllCues_work (s : Part) : ArrayWork s s.returnAllCues := by
  obtain ⟨bays, loose, work⟩ := Keeps.withdrawn (s := s) (u := s.returnAllCues) rfl rfl
  exact { bays, loose, work := fun _ => work
          play := fun law n => ⟨rfl, (law n).2⟩, cueSlots := s.returnAllCues_same.cueSlots }

theorem Part.stopPlayer_work (s : Part) (status : CueStatus) : ArrayWork s (s.stopPlayer status) :=
  (s.failCue_work status).trans { play := fun law n => ⟨rfl, (law n).2⟩ }

end

/-! ### The controller -/

theorem TakeArray.startErase_same (t : TakeArray) : t.startErase.memory = t.memory ∧
    t.startErase.freeze = t.freeze ∧ t.startErase.clearing = t.clearing ∧
    t.startErase.scanComplete = t.scanComplete ∧ t.startErase.scan = t.scan ∧
    t.startErase.serial = t.serial ∧ t.startErase.directory = t.directory ∧ t.startErase.erased = t.erased := by
  unfold TakeArray.startErase
  split
  · simp
  · split <;> simp

theorem Part.answer_work (s : Part) (n : Nat) (code : ResultCode) (data : List Byte) {settled : Prop} :
    ArrayWork s (s.answer n code data) settled where
  lane := ⟨[n], Answered.answer (List.mem_singleton_self n) _ _⟩

theorem Part.jobUnavailable_work (s : Part) (j : Job) : ArrayWork s (s.jobUnavailable j) False := by
  cases j
  case playerRead => exact s.playerReadDone_work _ _
  case takeRead | writeData | lock => exact s.answer_work _ _ _
  all_goals exact ArrayWork.refl s

/-- A round of the choice takes the oldest request and starts it, or completes it as not available. -/
theorem Part.startJob_work {s : Part} {j : Job} {more : List Job} (idle : s.array.operation = none)
    (ended : s.array.scan = none) (front : s.array.line = j :: more) : ArrayWork s (s.taken.startJob j) False := by
  have bays := (Part.startJob_shunts idle ended front).bays
  have loose : s.LooseLaw → (s.taken.startJob j).LooseLaw := fun _ => by
    obtain ⟨scan, job | none⟩ := Part.startJob_operation (s := s.taken) idle j
    · exact (Part.WorkLaw.of_job job (scan.trans ended)).loose
    · exact .of_idle none
  unfold Part.startJob at bays loose ⊢
  split at bays
  · rw [if_pos ‹_›] at loose ⊢
    exact { bays, loose, work := False.elim }
  · rw [if_neg ‹_›] at loose ⊢
    have other : ArrayWork s s.taken False := {
      bays := s.taken_shunts.bays, loose := fun _ => .of_idle idle, work := False.elim }
    exact other.trans (s.taken.jobUnavailable_work j)

theorem Part.startErase_work {s : Part} (idle : s.array.operation = none) (ended : s.array.scan = none)
    (empty : s.array.line = []) : ArrayWork s { s with array := s.array.startErase } := by
  obtain ⟨memory, freeze, clearing, complete, scan, serial, directory, erased⟩ := s.array.startErase_same
  have law := Part.startErase_workLaw idle ended empty
  exact { memory := fun h => memory ▸ h, memoryEq := memory, freeze, clearing, scanComplete := complete, scan, serial,
          directory, erased, bays := (Part.startErase_shunts idle ended).bays
          loose := fun _ => law.loose, work := fun _ _ => law }

theorem Part.chooseRounds_work (n : Nat) (s : Part) : ArrayWork s (Part.chooseRounds n s) False := by
  induction n generalizing s with
  | zero => exact ArrayWork.refl s
  | succ n ih =>
    by_cases free : s.array.operation = none ∧ s.array.scan = none
    · obtain ⟨idle, ended⟩ := free
      cases front : s.array.line with
      | nil =>
        rw [Part.chooseRounds_erases idle ended front]
        exact (Part.startErase_work idle ended front).loosen
      | cons j more =>
        rw [Part.chooseRounds_takes idle ended front]
        exact (Part.startJob_work idle ended front).trans (ih _)
    · rw [Part.chooseRounds_rests (by simpa only [ne_eq, ← Classical.not_and_iff_not_or_not] using free)]
      exact ArrayWork.refl s

theorem Part.choose_work (s : Part) : ArrayWork s s.choose :=
  { Part.chooseRounds_work _ s with work := fun _ law => law.choose }

/-- The controller chooses after work that leaves no operation in progress. -/
theorem Keeps.chosen {s t : Part} {settled : Prop} (h : Keeps s t settled) (idle : t.array.operation = none) :
    Keeps s t.choose :=
  (h.loosen.trans t.choose_work.toKeeps.loosen).settle fun _ => Part.choose_workLaw idle

/-- An erase in progress that is suspended. -/
theorem Part.suspend_work {s : Part} {bay : Bay} (erase : s.array.operation = some (.erase bay)) :
    ArrayWork s { s with array := { s.array with operation := none, suspended := some bay } } False where
  bays := fun law => (Part.suspend_shunts erase (law.oneErase bay erase)).bays law
  loose := fun _ => .of_idle rfl
  work := False.elim

theorem Part.kick_work (s : Part) : ArrayWork s s.kick := by
  refine ArrayWork.settle (settled := False) ?_ fun law => law.kick
  unfold Part.kick
  split
  · exact ArrayWork.refl s
  · next erase =>
    split
    · exact ArrayWork.refl s
    · exact (Part.suspend_work erase).trans (Part.choose_work _).loosen
  · exact s.choose_work.loosen

/-- The controller looks at what work has asked of it. -/
theorem ArrayWork.kicked {s t : Part} {settled : Prop} (h : ArrayWork s t settled) : ArrayWork s t.kick :=
  (h.loosen.trans t.kick_work.loosen).settle fun law => (h.loose law).kick

theorem StopWork.kicked {s t : Part} {settled : Prop} (h : StopWork s t settled) : StopWork s t.kick :=
  (h.loosen.trans t.kick_work.toStopWork.loosen).settle fun law => (h.loose law).kick

/-- Requests placed in the list of the lane, none of them a retire. -/
theorem Part.addLaneJobs_work (s : Part) (js : List Job) (plain : js.filter Job.isRetire = []) :
    ArrayWork s (s.addLaneJobs js) := by
  refine ArrayWork.kicked (settled := False) ?_
  have shunts : s.Shunts { s with array := { s.array with laneJobs := s.array.laneJobs ++ js } } := {
    retires := by simp [TakeArray.retires, TakeArray.work, plain] }
  exact { bays := shunts.bays, work := False.elim }

/-- Requests placed in the list of the recorder, none of them a retire. -/
theorem Part.addRecorderJobs_work (s : Part) (js : List Job) (plain : js.filter Job.isRetire = []) :
    ArrayWork s (s.addRecorderJobs js) := by
  refine ArrayWork.kicked (settled := False) ?_
  have shunts : s.Shunts { s with array := { s.array with recorderJobs := s.array.recorderJobs ++ js } } := {
    retires := by simp [TakeArray.retires, TakeArray.work, plain] }
  exact { bays := shunts.bays, work := False.elim }

theorem Part.fetchNow_work (s : Part) (running : s.PlayLaw → s.seq.state = .running) : ArrayWork s s.fetchNow :=
  (s.enterFetching_work running).kicked

end Sys2Proof.Machine
end

section
set_option Elab.async false
/-! SETTLED. The work of the recorder, of the sync unit and of the stop sequencer, function by function. -/

namespace Sys2Proof.Machine

/-! ### The recorder -/

/-- A recorder that differs in its buffers only. -/
theorem Recorder.setBuffer_eq (r : Recorder) (i : BufferId) (b : PageBuffer) :
    ∃ x y, r.setBuffer i b = { r with bufferA := x, bufferB := y } := by
  cases i
  · exact ⟨b, r.bufferB, rfl⟩
  · exact ⟨r.bufferA, b, rfl⟩

theorem Recorder.place_eq (r : Recorder) (es : List Entry) :
    ∃ x y, r.place es = { r with bufferA := x, bufferB := y } := by
  unfold Recorder.place
  split
  · exact ⟨_, _, rfl⟩
  · exact r.setBuffer_eq _ _

section
variable (r : Recorder) (i : BufferId) (b : PageBuffer) (es : List Entry)

@[simp] theorem Recorder.setBuffer_state : (r.setBuffer i b).state = r.state := by cases i <;> rfl
@[simp] theorem Recorder.setBuffer_slot : (r.setBuffer i b).slot = r.slot := by cases i <;> rfl
@[simp] theorem Recorder.setBuffer_missed : (r.setBuffer i b).missed = r.missed := by cases i <;> rfl
@[simp] theorem Recorder.setBuffer_reserved : (r.setBuffer i b).reserved = r.reserved := by cases i <;> rfl

@[simp] theorem Recorder.place_state : (r.place es).state = r.state := by
  obtain ⟨_, _, eq⟩ := r.place_eq es
  rw [eq]

@[simp] theorem Recorder.place_slot : (r.place es).slot = r.slot := by
  obtain ⟨_, _, eq⟩ := r.place_eq es
  rw [eq]

@[simp] theorem Recorder.place_missed : (r.place es).missed = r.missed := by
  obtain ⟨_, _, eq⟩ := r.place_eq es
  rw [eq]

@[simp] theorem Recorder.place_reserved : (r.place es).reserved = r.reserved := by
  obtain ⟨_, _, eq⟩ := r.place_eq es
  rw [eq]

end

/-- An update of the recorder and of the slots and queues of the array. -/
theorem RecorderWork.recorder {s : Part} (r : Recorder) (t : TakeArray)
    (missed : s.recorder.missed ≤ 65535 → r.missed ≤ 65535)
    (quiet : s.recorder.state.quiet = true → r.state.quiet = true)
    (array : ∃ e d, t = { s.array with erased := e, directory := d })
    (bays : s.BayLaw → Part.BayLaw { s with recorder := r, array := t }) :
    RecorderWork s { s with recorder := r, array := t } := by
  obtain ⟨e, d, rfl⟩ := array
  exact { missed, bays, play := fun law n => ⟨(law n).1, quiet (law n).2⟩ }

/-- An update of the recorder in fields that the laws do not look at. -/
theorem RecorderWork.aside {s : Part} (r : Recorder) (missed : s.recorder.missed ≤ 65535 → r.missed ≤ 65535)
    (state : r.state = s.recorder.state) (slot : r.slot = s.recorder.slot)
    (reserved : r.reserved = s.recorder.reserved) : RecorderWork s { s with recorder := r } :=
  .recorder r s.array missed (by rw [state]; exact id) ⟨_, _, rfl⟩ (Part.Shunts.bays { state, slot, reserved })

/-- Work on the recorder and on the slots and queues of the array. -/
theorem RecorderWork.of_part {s t : Part} (r : Recorder) (a : TakeArray) (eq : t = { s with recorder := r, array := a })
    (missed : s.recorder.missed ≤ 65535 → r.missed ≤ 65535)
    (quiet : s.recorder.state.quiet = true → r.state.quiet = true)
    (array : ∃ e d, a = { s.array with erased := e, directory := d }) (bays : s.BayLaw → t.BayLaw) : RecorderWork s t := by
  subst eq
  exact .recorder r a missed quiet array bays

theorem Part.returnReserved_eq (s : Part) : ∃ e d x,
    s.returnReserved = { s with
      array := { s.array with erased := e, directory := d }, recorder := { s.recorder with reserved := x } } := by
  unfold Part.returnReserved
  split
  · exact ⟨_, _, _, rfl⟩
  · exact ⟨_, _, s.recorder.reserved, rfl⟩

theorem Part.onSlot_work (s : Part) (f : DirectorySlot → DirectorySlot)
    (state : ∀ d, (f d).state = d.state := by exact fun _ => rfl)
    (bays : ∀ d, (f d).bays = d.bays := by exact fun _ => rfl) : RecorderWork s (s.onSlot f) := by
  have bays := (s.onSlot_shunts f state bays).bays
  unfold Part.onSlot at bays ⊢
  split
  · exact RecorderWork.refl s
  · next named =>
    rw [named] at bays
    exact { bays }

/-- The recorder of a take that closes, and the bay that it gives back. -/
theorem Part.closing_work {s : Part} (busy : s.recorder.state ≠ .idle) (r : Recorder) (state : r.state = .closing)
    (slot : r.slot = s.recorder.slot) (reserved : r.reserved = s.recorder.reserved)
    (missed : r.missed = s.recorder.missed) : RecorderWork s (Part.returnReserved { s with recorder := r }) := by
  obtain ⟨e, d, x, eq⟩ := Part.returnReserved_eq { s with recorder := r }
  exact .of_part _ _ eq (by rw [missed]; exact id) (fun _ => by simp [state, RecorderState.quiet]) ⟨_, _, rfl⟩
    fun law => law.closing busy r slot reserved

theorem Part.closeRecording_work {s : Part} (busy : s.recorder.state ≠ .idle) (reason : EndReason) :
    RecorderWork s (s.closeRecording reason) := by
  unfold Part.closeRecording
  dsimp only
  split
  · exact (Part.closing_work busy _ (by simp) (by simp) (by simp) (by simp)).trans
      (Part.addRecorderJobs_work _ _ rfl).toRecorderWork
  · exact Part.closing_work busy _ (by simp) (by simp) (by simp) (by simp)

theorem Part.closeArmed_work {s : Part} (armed : s.recorder.state = .armed) : RecorderWork s s.closeArmed := by
  have bays : s.BayLaw → s.closeArmed.BayLaw := fun law => law.closeArmed armed
  unfold Part.closeArmed at bays ⊢
  split
  · next named =>
    rw [named] at bays
    exact RecorderWork.recorder _ s.array id (fun _ => rfl) ⟨_, _, rfl⟩ bays
  · next named =>
    rw [named] at bays
    exact RecorderWork.recorder _ _ id (fun _ => rfl) ⟨_, _, rfl⟩ bays

theorem Part.recorderStopNotice_work (s : Part) : RecorderWork s s.recorderStopNotice := by
  unfold Part.recorderStopNotice
  split
  case h_1 state | h_2 state => exact Part.closeRecording_work (by rw [state]; exact nofun) _
  case h_3 armed => exact Part.closeArmed_work armed
  all_goals exact RecorderWork.refl s

theorem Part.finishClosing_eq (s : Part) : ∃ d x,
    s.finishClosing = { s with array := { s.array with directory := d }, recorder := { s.recorder with state := x } } ∧
      (x = .idle ∨ x = s.recorder.state) := by
  unfold Part.finishClosing Part.onSlot
  split
  · cases s.recorder.slot
    · exact ⟨_, _, rfl, .inl rfl⟩
    · exact ⟨_, _, rfl, .inl rfl⟩
  · exact ⟨s.array.directory, s.recorder.state, rfl, .inr rfl⟩

theorem Part.finishClosing_work (s : Part) : RecorderWork s s.finishClosing := by
  obtain ⟨d, x, eq, state⟩ := s.finishClosing_eq
  refine .of_part _ _ eq id (fun quiet => ?_) ⟨_, _, rfl⟩ Part.BayLaw.finishClosing
  rcases state with rfl | rfl
  · rfl
  · exact quiet

theorem Part.makeTurn_work {s : Part} (recording : s.recorder.state = .recording) (i : BufferId) (slot : DirIx)
    (opening : List Entry) : RecorderWork s (s.makeTurn i slot opening) := by
  unfold Part.makeTurn
  refine (RecorderWork.recorder _ s.array (by simp) (by simp) ⟨_, _, rfl⟩ fun law => law.withRecorder _ ?_ ?_).trans
    (Part.addRecorderJobs_work _ _ ?_).toRecorderWork
  · intro _
    simpa using law.recording (by rw [recording]; exact nofun)
  · intro bay some
    simp at some
  · cases s.recorder.reserved <;> rfl

theorem TakeArray.claim_eq {t u : TakeArray} {i : DirIx} {bay : Bay} (h : t.claim i = some (bay, u)) :
    t.erased = bay :: u.erased ∧ u = { t with
      erased := u.erased
      directory := t.directory.set i { t.directory[i] with bays := t.directory[i].bays ++ [bay] } } := by
  unfold TakeArray.claim at h
  split at h
  · cases h
  · rename_i b rest erased
    cases h
    exact ⟨erased, rfl⟩

theorem Part.reserveBay_work {s : Part} (busy : s.recorder.state = .recording ∨ s.recorder.state = .stalled) {slot : DirIx}
    (named : s.recorder.slot = some slot) : RecorderWork s (s.reserveBay slot) := by
  have bays : s.BayLaw → (s.reserveBay slot).BayLaw := fun law => law.reserveBay busy named
  unfold Part.reserveBay at bays ⊢
  split
  · exact RecorderWork.refl s
  · rename_i bay t claimed
    rw [claimed] at bays
    exact RecorderWork.recorder _ t id id ⟨_, _, (TakeArray.claim_eq claimed).2⟩ bays

theorem Part.reserveBay_state (s : Part) (slot : DirIx) :
    (s.reserveBay slot).recorder.state = s.recorder.state ∧ (s.reserveBay slot).recorder.slot = s.recorder.slot := by
  unfold Part.reserveBay
  split <;> exact ⟨rfl, rfl⟩

/-- The turn of a page of a recording: it may stall, or close the take. -/
theorem Part.turnPage_work {s : Part} (recording : s.recorder.state = .recording) : RecorderWork s s.turnPage := by
  unfold Part.turnPage
  split
  · rename_i i slot _ named
    dsimp only
    split
    · exact Part.closeRecording_work (by rw [recording]; exact nofun) _
    · have turned (u : Part) (work : RecorderWork s u) (state : u.recorder.state = .recording) :
          RecorderWork s (if u.turnWaits i ((s.recorder.buffer i).page.getD 0) then
            { u with recorder := { u.recorder with state := .stalled } } else u.makeTurn i slot []) := by
        split
        · refine work.trans (RecorderWork.recorder _ u.array id ?_ ⟨_, _, rfl⟩ fun law => law.withRecorder _ ?_ ?_)
          · rw [state]
            exact nofun
          · exact fun _ => law.recording (by rw [state]; exact nofun)
          · exact fun bay some => ⟨.inr rfl, (law.reserved bay some).2⟩
        · exact work.trans (Part.makeTurn_work state _ _ _)
      cases needsBay ((s.recorder.buffer i).page.getD 0) && s.recorder.reserved.isNone
      · exact turned s (RecorderWork.refl s) recording
      · exact turned _ (Part.reserveBay_work (.inl recording) named)
          ((s.reserveBay_state slot).1.trans recording)
  · exact RecorderWork.refl s

theorem Part.checkRoom_work {s : Part} (recording : s.recorder.state = .recording) : RecorderWork s s.checkRoom := by
  unfold Part.checkRoom
  split
  · split
    · exact Part.turnPage_work recording
    · exact RecorderWork.refl s
  · exact RecorderWork.refl s

theorem Part.endStall_work (s : Part) : RecorderWork s s.endStall := by
  unfold Part.endStall
  split
  · rename_i stalled
    split
    · dsimp only
      split
      · exact RecorderWork.refl s
      · refine RecorderWork.trans ?_ (Part.makeTurn_work rfl _ _ _)
        refine RecorderWork.recorder _ s.array id (by simp [stalled, RecorderState.quiet]) ⟨_, _, rfl⟩
          fun law => law.withRecorder _ ?_ ?_
        · exact fun _ => law.recording (by rw [stalled]; exact nofun)
        · exact fun bay some => ⟨.inl rfl, (law.reserved bay some).2⟩
    · exact RecorderWork.refl s
  · exact RecorderWork.refl s

theorem Part.bayForStall_work (s : Part) : RecorderWork s s.bayForStall := by
  unfold Part.bayForStall
  split
  · rename_i stalled
    split
    · dsimp only
      split
      · exact (Part.reserveBay_work (.inr stalled) ‹_›).trans (Part.endStall_work _)
      · exact RecorderWork.refl s
    · exact RecorderWork.refl s
  · exact RecorderWork.refl s

theorem Part.recorderPageDone_work (s : Part) (slot : DirIx) (i : BufferId) :
    RecorderWork s (s.recorderPageDone slot i) := by
  have counted : RecorderWork s { s with array := s.array.setSlot slot { s.array.directory[slot] with
      dataPages := s.array.directory[slot].dataPages + 1 } } := {
    bays := Part.Shunts.bays (s.setSlot_shunts slot _ (by rfl) (by rfl)) }
  exact counted.trans (RecorderWork.aside _ (by simp) (by simp) (by simp) (by simp))

theorem Part.onSlot_recorder (s : Part) (f : DirectorySlot → DirectorySlot) : (s.onSlot f).recorder = s.recorder := by
  unfold Part.onSlot
  split <;> rfl

theorem Part.startClock_work {s : Part} (armed : s.recorder.state = .armed) : RecorderWork s s.startClock := by
  unfold Part.startClock
  split
  · exact RecorderWork.refl s
  · dsimp only
    have recorder := s.onSlot_recorder fun d => { d with info := { d.info with startFrame := s.sync.frameCount } }
    have started : RecorderWork s { s.onSlot (fun d =>
        { d with info := { d.info with startFrame := s.sync.frameCount } }) with
        recorder := { (s.onSlot fun d =>
            { d with info := { d.info with startFrame := s.sync.frameCount } }).recorder with
          state := .recording
          clock := 0
          bufferA := { state := .filling, page := some 0, entries := [] }
          nextPage := 1 } } := by
      refine (s.onSlot_work _).trans
        (RecorderWork.recorder _ _ id (fun quiet => ?_) ⟨_, _, rfl⟩ fun law => law.withRecorder _ ?_ ?_)
      · simp [recorder, armed, RecorderState.quiet] at quiet
      · exact fun _ => law.recording (by rw [recorder, armed]; exact nofun)
      · exact fun bay some => ⟨.inl rfl, (law.reserved bay some).2⟩
    split
    · exact started.trans (Part.addRecorderJobs_work _ _ rfl).toRecorderWork
    · exact started

theorem Part.recorderServing_work (s : Part) : RecorderWork s s.recorderServing := by
  unfold Part.recorderServing
  split
  · rename_i armed
    split
    · exact Part.startClock_work armed
    · split
      · exact Part.startClock_work armed
      · exact RecorderWork.refl s
    · exact RecorderWork.refl s
  case h_2 | h_3 => exact RecorderWork.aside _ id rfl rfl rfl
  all_goals exact RecorderWork.refl s

theorem Part.tellRecorder_work (s : Part) : RecorderWork s s.tellRecorder := by
  unfold Part.tellRecorder
  split
  · rename_i told
    exact Part.startClock_work told.1
  · exact RecorderWork.refl s

theorem Recorder.miss_missed (r : Recorder) (h : r.missed ≤ 65535) : r.miss.missed ≤ 65535 := by
  unfold Recorder.miss
  dsimp only
  split <;> omega

theorem Recorder.keep_same (r : Recorder) (values : List Int) :
    (r.keep values).state = r.state ∧ (r.keep values).missed = r.missed ∧ (r.keep values).slot = r.slot ∧
      (r.keep values).reserved = r.reserved := by
  unfold Recorder.keep
  split
  · split <;> simp
  · simp

theorem Part.sampleInstant_work (s : Part) : RecorderWork s s.sampleInstant := by
  unfold Part.sampleInstant
  split
  case isFalse => exact RecorderWork.refl s
  case isTrue busy =>
  split
  · exact RecorderWork.refl s
  · split
    · exact RecorderWork.refl s
    · split
      · exact Part.closeRecording_work (by rcases busy with h | h <;> rw [h] <;> exact nofun) _
      · split
        · refine (s.onSlot_work _).trans (RecorderWork.aside _ ?_ ?_ ?_ ?_)
          · rw [Part.onSlot_recorder]
            exact s.recorder.miss_missed
          all_goals
            rw [Part.onSlot_recorder]
            rfl
        · next writing =>
          obtain ⟨state, missed, slot, reserved⟩ := s.recorder.keep_same (s.sampleValues _)
          refine ((s.onSlot_work _).trans (RecorderWork.aside _ ?_ ?_ ?_ ?_)).trans
            (Part.checkRoom_work ?_)
          · rw [Part.onSlot_recorder, missed]
            exact id
          · rw [Part.onSlot_recorder, state]
          · rw [Part.onSlot_recorder, slot]
          · rw [Part.onSlot_recorder, reserved]
          · exact state.trans (busy.resolve_right writing)

theorem Part.markToRecorder_work (s : Part) (phase : Nat) : RecorderWork s (s.markToRecorder phase) := by
  unfold Part.markToRecorder
  split
  case h_1 recording =>
    split
    · exact RecorderWork.refl s
    · refine ((s.onSlot_work _).trans (RecorderWork.aside _ ?_ ?_ ?_ ?_)).trans
        (Part.checkRoom_work ?_)
      all_goals simp [Part.onSlot_recorder, recording]
  case h_2 => exact RecorderWork.aside _ id rfl rfl rfl
  all_goals exact RecorderWork.refl s

/-! ### Marks -/

/-- A phase point that expires: of the sync unit the phase point goes and the frame count rises, and the mark
is work of the recorder and the player. -/
theorem Part.expirePhasePoint_work (s : Part) : RecorderWork { s with sync := { s.sync with
    phasePoint := none, frameCount := s.sync.frameCount + 1 } } s.expirePhasePoint :=
  (Part.markToRecorder_work _ _).trans (Part.markToPlayer_work _ _).toRecorderWork

end Sys2Proof.Machine
end

section
set_option Elab.async false
/-! SETTLED. The work of the stop sequencer, function by function: the entries of the stop states, causes, timers
and readings. -/

namespace Sys2Proof.Machine

/-! ### Leaving Running -/

/-- A player at rest is left in its state by the controller. -/
theorem Part.startJob_idle {s : Part} (idle : s.player.state.idle = true) (j : Job) :
    (s.startJob j).player.state = s.player.state := by
  unfold Part.startJob
  split
  · rfl
  · cases j
    case playerRead => exact Part.playerReadDone_idle idle _ _
    all_goals rfl

theorem Part.chooseRounds_idle (n : Nat) {s : Part} (idle : s.player.state.idle = true) :
    (Part.chooseRounds n s).player.state = s.player.state := by
  induction n generalizing s with
  | zero => rfl
  | succ n ih =>
    have next (t : TakeArray) (j : Job) :
        (Part.chooseRounds n (Part.startJob { s with array := t } j)).player.state = s.player.state := by
      have start := Part.startJob_idle (s := { s with array := t }) idle j
      rw [ih (by rw [start]; exact idle), start]
    unfold Part.chooseRounds
    split
    · rfl
    · split
      case h_4 => rfl
      all_goals exact next _ _

theorem Part.kick_idle {s : Part} (idle : s.player.state.idle = true) : s.kick.player.state = s.player.state := by
  unfold Part.kick
  split
  · rfl
  · split
    · rfl
    · exact Part.chooseRounds_idle _ idle
  · exact Part.chooseRounds_idle _ idle

theorem Part.returnReserved_player (s : Part) : s.returnReserved.player = s.player := by
  unfold Part.returnReserved
  split <;> rfl

theorem Part.returnReserved_state (s : Part) : s.returnReserved.recorder.state = s.recorder.state := by
  unfold Part.returnReserved
  split <;> rfl

/-- A closing take leaves a player at rest as it is, and the recorder Closing. -/
theorem Part.closeRecording_quiet {s : Part} (idle : s.player.state.idle = true) (reason : EndReason) :
    (s.closeRecording reason).player.state = s.player.state ∧
      (s.closeRecording reason).recorder.state = .closing := by
  unfold Part.closeRecording
  dsimp only
  split
  · refine ⟨(Part.kick_idle (by simpa only [Part.returnReserved_player] using idle)).trans
      (congrArg Player.state (Part.returnReserved_player _)), ?_⟩
    rw [(Part.addRecorderJobs_work _ _ rfl).recorder]
    exact (Part.returnReserved_state _).trans (Recorder.setBuffer_state _ _ _)
  · exact ⟨congrArg Player.state (Part.returnReserved_player _), Part.returnReserved_state _⟩

theorem Part.closeArmed_quiet (s : Part) : s.closeArmed.player = s.player ∧ s.closeArmed.recorder.state = .idle := by
  unfold Part.closeArmed
  split <;> exact ⟨rfl, rfl⟩

theorem Part.recorderStopNotice_quiet {s : Part} (idle : s.player.state.idle = true) :
    s.recorderStopNotice.Quiet := by
  unfold Part.recorderStopNotice
  split
  case h_1 | h_2 =>
    obtain ⟨player, recorder⟩ := Part.closeRecording_quiet idle .stop
    exact ⟨by rw [player]; exact idle, by rw [recorder]; rfl⟩
  case h_3 =>
    obtain ⟨player, recorder⟩ := s.closeArmed_quiet
    exact ⟨by rw [player]; exact idle, by rw [recorder]; rfl⟩
  all_goals
    rename_i state
    exact ⟨idle, by rw [state]; rfl⟩

@[simp] theorem Shaper.onMotion_get (sh : Shaper) (f : AxisRecord → Channel → Channel) (c : Slot) :
    (sh.onMotion f).chans[c] =
      if isMotion c && sh.axes[c].present then f sh.axes[c] sh.chans[c] else sh.chans[c] := by
  simp only [Shaper.onMotion, Shaper.mapChans_get]

/-- R87: on leaving Running nothing plays any more. -/
theorem Part.leaveRunning_quiet (s : Part) : s.leaveRunning.Quiet :=
  Part.recorderStopNotice_quiet (Part.playerStopNotice_idle _)

theorem Part.recordResume_work (s : Part) : ArrayWork s { s with shaper := s.shaper.recordResume } where
  window := fun run _ law => law.turned run rfl rfl rfl Iff.rfl fun c => by
    simp only [Shaper.recordResume, Shaper.onMotion_get]
    split
    · exact ⟨rfl, rfl, fun h => .inl ⟨h, rfl⟩, .inl rfl⟩
    · exact .refl _ _ _

theorem Part.parkTakeLenses_work (s : Part) : ArrayWork s { s with shaper := s.shaper.parkTakeLenses } where
  window := fun run _ law => law.turned run rfl rfl rfl Iff.rfl fun c => by
    simp only [Shaper.parkTakeLenses, Shaper.mapChans_get]
    split
    · rename_i h
      simp only [Bool.and_eq_true, decide_eq_true_eq] at h
      exact .intro rfl rfl rfl (.inl (by rw [h.2]; exact Source.noConfusion))
    · exact .refl _ _ _

theorem Part.leaveRunning_work (s : Part) : RecorderWork s s.leaveRunning :=
  (s.recordResume_work.trans (Part.parkTakeLenses_work _)).toRecorderWork.trans
    ((Part.playerStopNotice_work _).toRecorderWork.trans (Part.recorderStopNotice_work _))

/-! ### The stop states entered -/

/-- In Safe-Off the present motion axes are on Track, and that is all that the window law asks of them. -/
theorem Part.WindowLaw.tracked {s t : Part} (law : s.WindowLaw) (axes : t.shaper.axes = s.shaper.axes)
    (chans : t.shaper.chans = s.shaper.track.chans) (lens : t.lens = s.lens)
    (mode : t.lane.mode = s.lane.mode) (off : t.seq.state = .safeOff) : t.WindowLaw := by
  have motion (a : Axis) (present : s.shaper.axes[Axis.slot a].present = true) :
      t.shaper.chans[Axis.slot a].source = .track := by
    have moves : isMotion (Axis.slot a) = true := decide_eq_true a.isLt
    rw [chans, Shaper.track, Shaper.onMotion_get, if_pos (by rw [moves, present]; rfl)]
    rfl
  have other (c : Slot) : t.shaper.chans[c].source = .track ∨ t.shaper.chans[c] = s.shaper.chans[c] := by
    rw [chans, Shaper.track, Shaper.onMotion_get]
    split
    · exact .inl rfl
    · exact .inr rfl
  constructor
  case sane => rw [axes]; exact law.sane
  case setup =>
    intro h c
    rcases other c with now | same
    · exact now
    · rw [same]; exact law.setup (mode ▸ h) c
  case motion =>
    intro a present
    exact ⟨fun _ => off, fun _ => motion a (axes ▸ present)⟩
  case lens =>
    intro l run present driven
    have moves : isMotion (LensIx.slot l) = false := decide_eq_false (by simp [LensIx.slot])
    rw [chans, Shaper.track, Shaper.onMotion_get, if_neg (by rw [moves]; simp)]
    exact law.lens l (mode ▸ run) (axes ▸ present) (lens ▸ driven)
  case inside =>
    intro c present moves driven
    have same := (other c).resolve_left moves
    rw [same] at moves ⊢
    rw [axes] at present ⊢
    exact law.inside c present moves fun l h => lens ▸ driven l h
  case ramp =>
    intro c present stop
    have same := (other c).resolve_left (by rw [stop]; exact Source.noConfusion)
    rw [same] at stop ⊢
    rw [axes] at present ⊢
    exact law.ramp c present stop

theorem Part.enterSafeOff_work {s : Part} (quiet : s.PlayLaw → s.Quiet) : StopWork s s.enterSafeOff where
  phase := fun _ => Nat.zero_le _
  inRun := fun _ n => absurd rfl n
  chain := fun _ => ⟨⟨Bool.noConfusion, fun n => absurd rfl n⟩, fun n => absurd rfl n, fun n => absurd rfl n⟩
  recovery := fun _ _ => rfl
  play := fun law => .of_quiet (quiet law)
  window := fun _ _ law => law.tracked rfl rfl rfl rfl rfl

theorem Part.onAxes_work (s : Part) (f : Axis → AxisRecord → SequencerAxis → SequencerAxis) :
    StopWork s (s.onAxes f) := {}

/-- An update of the sequencer that leaves the stop state, the lines and the phase count. -/
theorem StopWork.seq {s : Part} (q : Sequencer) (state : q.state = s.seq.state)
    (chain : q.chainClosed = s.seq.chainClosed) (line : q.eStopOpen = s.seq.eStopOpen)
    (phase : q.phaseCount = s.seq.phaseCount) : StopWork s { s with seq := q } := by
  obtain ⟨_, _, _, _, _, _, _, _, _, _, _, _, _⟩ := q
  cases state
  cases chain
  cases line
  cases phase
  exact {}

theorem Part.completeBraking_work {s : Part} (quiet : s.PlayLaw → s.Quiet) : StopWork s s.completeBraking := by
  unfold Part.completeBraking
  split
  · exact Part.enterSafeOff_work quiet
  · exact StopWork.refl s

/-- A change between two stop states out of Safe-Off and Running, the channels turned. -/
theorem StopWork.between {s : Part} (q : Sequencer) (sh : Shaper) (was : s.seq.state ≠ .safeOff)
    (now : q.state ≠ .safeOff) (chain : q.chainClosed = s.seq.chainClosed) (line : q.eStopOpen = s.seq.eStopOpen)
    (phase : s.seq.phaseCount ≤ 65535 → q.phaseCount ≤ 65535) (quiet : s.PlayLaw → s.Quiet)
    (shaper : sh = { s.shaper with chans := sh.chans })
    (chans : s.WindowLaw → ∀ c : Slot,
      s.shaper.chans[c].Turned sh.chans[c] s.shaper.axes[c].amax (s.seq.state ≠ .safeOff)) :
    StopWork s { s with seq := q, shaper := sh } := by
  obtain ⟨axes, timing, turned, sigma⟩ := sh
  cases shaper
  exact {
    phase
    inRun := fun run _ => run was
    chain := fun law => ⟨by simp only [chain, law.closed_iff, ne_eq, was, now], fun _ => line.trans (law.line_closed was),
      fun _ => law.in_run was⟩
    recovery := fun _ h => absurd h now
    play := fun law => .of_quiet (quiet law)
    window := fun run _ law => law.turned run rfl rfl rfl (by simp only [was, now]) (chans law) }

theorem Part.enterRamping_work {s : Part} (was : s.seq.state ≠ .safeOff) (quiet : s.PlayLaw → s.Quiet)
    (category : InForce) : StopWork s (s.enterRamping category) := by
  refine StopWork.between _ _ was StopState.noConfusion rfl rfl (fun _ => Nat.zero_le _) quiet rfl fun law c => ?_
  simp only [Shaper.beginRamp, Shaper.onMotion_get]
  split
  · exact ⟨rfl, rfl, fun _ => .inr (law.sane c).2.2, .inr ⟨Source.noConfusion, .inr was⟩⟩
  · exact .refl _ _ _

theorem Part.enterHolding_work {s : Part} (was : s.seq.state ≠ .safeOff) (quiet : s.PlayLaw → s.Quiet) :
    StopWork s s.enterHolding := by
  refine StopWork.between _ _ was StopState.noConfusion rfl rfl id quiet rfl fun _ c => ?_
  simp only [Shaper.holdHere, Shaper.onMotion_get]
  split
  · exact .intro rfl rfl rfl (.inr was)
  · exact .refl _ _ _

theorem Part.enterSettling_work {s : Part} (was : s.seq.state ≠ .safeOff) (quiet : s.PlayLaw → s.Quiet) :
    StopWork s s.enterSettling :=
  (StopWork.between { s.seq with state := .settling, phaseStart := s.gateway.cycle, phaseCount := 0 } s.shaper was
    StopState.noConfusion rfl rfl (fun _ => Nat.zero_le _) quiet rfl fun _ _ => .refl _ _ _).trans
    (Part.onAxes_work _ _)

theorem Part.enterBraking_work {s : Part} (was : s.seq.state ≠ .safeOff) (quiet : s.PlayLaw → s.Quiet) :
    StopWork s s.enterBraking :=
  (StopWork.between
    { s.seq with state := .braking, category := .none, phaseStart := s.gateway.cycle, phaseCount := 0 } s.shaper was
    StopState.noConfusion rfl rfl (fun _ => Nat.zero_le _) quiet rfl fun _ _ => .refl _ _ _).trans
    ((Part.onAxes_work _ _).trans (Part.completeBraking_work fun law => law.quiet StopState.noConfusion))

theorem Part.continueRunning_work {s : Part} (was : s.seq.state ≠ .safeOff) : StopWork s s.continueRunning where
  inRun := fun run _ => run was
  chain := fun law => ⟨by
      have closed : s.seq.chainClosed = true := law.closed_iff.2 was
      exact ⟨fun _ => StopState.noConfusion, fun _ => closed⟩,
    fun _ => law.line_closed was, fun _ => law.in_run was⟩
  recovery := fun _ h => StopState.noConfusion h
  play := fun _ => .of_running rfl
  window := fun run _ law => law.turned run rfl rfl rfl
    (by simp only [was, iff_false]; exact StopState.noConfusion) fun c => by
      simp only [Part.continueRunning, Shaper.resumeLive, Shaper.onMotion_get]
      split
      · split
        · exact .intro rfl rfl rfl (.inr was)
        · exact .refl _ _ _
      · exact .refl _ _ _

/-! ### Causes -/

theorem Part.transition_work (s : Part) (category : Category) : StopWork s (s.transition category) := by
  have left (run : s.seq.state = .running) : s.leaveRunning.seq.state ≠ .safeOff := by
    rw [s.leaveRunning_work.seq, run]; exact StopState.noConfusion
  unfold Part.transition
  split
  case h_1 run | h_8 run =>
    exact s.leaveRunning_work.toStopWork.trans
      (Part.enterRamping_work (left run) (fun _ => s.leaveRunning_quiet) _)
  case h_15 run =>
    exact s.leaveRunning_work.toStopWork.trans (Part.enterSafeOff_work fun _ => s.leaveRunning_quiet)
  case h_9 | h_10 => exact {}
  case h_11 state =>
    exact Part.enterBraking_work (by rw [state]; exact StopState.noConfusion)
      fun law => law.quiet (by rw [state]; exact StopState.noConfusion)
  case h_13 state | h_16 state | h_17 state | h_18 state | h_19 state | h_20 state =>
    exact Part.enterSafeOff_work fun law => law.quiet (by rw [state]; exact StopState.noConfusion)
  all_goals exact StopWork.refl s

theorem Part.post_work (s : Part) (kind : CauseKind) (category : Category) (detail : Nat) :
    StopWork s (s.post kind category detail) :=
  StopWork.trans (t := { s with seq := s.seq.record kind detail }) {} (Part.transition_work _ _)

theorem Part.postAll_work (cs : List (CauseKind × Category × Nat)) (s : Part) : StopWork s (s.postAll cs) := by
  induction cs generalizing s with
  | nil => exact StopWork.refl s
  | cons c cs ih => exact (s.post_work _ _ _).trans (ih _)

/-- A Hard cause leaves Safe-Off with the stop chain output open, whatever it was before. -/
theorem Part.transition_hard_open (s : Part) (opened : s.seq.state = .safeOff → s.seq.chainClosed = false) :
    (s.transition .hard).seq.state = .safeOff ∧ (s.transition .hard).seq.chainClosed = false := by
  unfold Part.transition
  cases state : s.seq.state
  case safeOff => exact ⟨state, opened state⟩
  all_goals exact ⟨rfl, rfl⟩

theorem Part.openEStop_work (s : Part) : StopWork s s.openEStop := by
  have post := Part.post_work { s with seq := { s.seq with eStopOpen := true, chainClosed := false } } .eStop .hard 0
  obtain ⟨off, opened⟩ := Part.transition_hard_open
    { s with seq := { s.seq with eStopOpen := true, chainClosed := false }.record .eStop 0 } (fun _ => rfl)
  exact { post with
    scale := fun h => post.scale ⟨h.1, h.2, h.3⟩
    bays := fun law => post.bays ⟨law.1, law.2, law.3, law.4, law.5, law.6, law.7, law.8⟩
    loose := fun law => post.loose ⟨law.1, law.2⟩
    work := fun _ law => post.work trivial ⟨law.1, law.2, law.3, law.4⟩
    window := fun run play law => post.window run play ⟨law.1, law.2, law.3, law.4, law.5, law.6⟩
    inRun := fun _ n => absurd off n
    chain := fun _ => ⟨by simp [Part.openEStop, Part.post, off, opened], fun n => absurd off n, fun n => absurd off n⟩ }

theorem Part.openGuard_work (s : Part) : StopWork s s.openGuard :=
  StopWork.trans (t := { s with seq := { s.seq with guardOpen := true } }) {} (Part.post_work _ _ _ _)

/-! ### Timers -/

theorem Part.checkStillTimeout_work (s : Part) : StopWork s s.checkStillTimeout := by
  unfold Part.checkStillTimeout
  split
  · exact s.post_work _ _ _
  · exact StopWork.refl s

theorem Part.checkBrakeTimer_work (s : Part) : StopWork s s.checkBrakeTimer := by
  unfold Part.checkBrakeTimer
  split
  · rename_i due
    exact (s.onAxes_work _).trans (Part.completeBraking_work fun law => law.quiet fun (run : s.seq.state = .running) => by
      simp [run] at due)
  · exact StopWork.refl s

theorem Part.checkBrakeTimeout_work (s : Part) : StopWork s s.checkBrakeTimeout := by
  unfold Part.checkBrakeTimeout
  split
  · exact s.post_work _ _ _
  · exact StopWork.refl s

theorem Part.completeArming_work {s : Part} (arming : s.seq.state = .arming) : StopWork s s.completeArming := by
  unfold Part.completeArming
  split
  · exact Part.enterHolding_work (by rw [arming]; exact StopState.noConfusion)
      fun law => law.quiet (by rw [arming]; exact StopState.noConfusion)
  · exact StopWork.refl s

theorem Part.checkReleaseTimer_work (s : Part) : StopWork s s.checkReleaseTimer := by
  unfold Part.checkReleaseTimer
  split
  · rename_i due
    exact (s.onAxes_work _).trans (Part.completeArming_work due.1)
  · exact StopWork.refl s

theorem Part.checkArmingTimeout_work (s : Part) : StopWork s s.checkArmingTimeout := by
  unfold Part.checkArmingTimeout
  split
  · exact s.post_work _ _ _
  · exact StopWork.refl s

theorem bump65535_le (n : Nat) : bump65535 n ≤ 65535 := Nat.min_le_left _ _

theorem Part.countPhase_work (s : Part) : StopWork s s.countPhase where
  phase := fun _ => bump65535_le _

theorem Part.countRelease_work (s : Part) : StopWork s s.countRelease := {}

theorem Part.sequencerServing_work (s : Part) : StopWork s s.sequencerServing := by
  unfold Part.sequencerServing
  split
  case h_1 => exact s.countPhase_work.trans (Part.checkStillTimeout_work _)
  case h_2 => exact s.countPhase_work.trans ((Part.checkBrakeTimer_work _).trans (Part.checkBrakeTimeout_work _))
  case h_3 =>
    exact s.countPhase_work.trans ((Part.countRelease_work _).trans
      ((Part.checkReleaseTimer_work _).trans (Part.checkArmingTimeout_work _)))
  all_goals exact StopWork.refl s

/-! ### Readings -/

theorem Part.declareStandstill_work {s : Part} (was : s.seq.state ≠ .safeOff) (quiet : s.PlayLaw → s.Quiet) :
    StopWork s s.declareStandstill := by
  unfold Part.declareStandstill
  split
  · exact Part.enterHolding_work was quiet
  · exact Part.enterBraking_work was quiet
  · exact StopWork.refl s

theorem Part.readSettling_work {s : Part} (settling : s.seq.state = .settling) (cycle : CycleNo) :
    StopWork s (s.readSettling cycle) := by
  have was : s.seq.state ≠ .safeOff := by rw [settling]; exact StopState.noConfusion
  have quiet : s.PlayLaw → s.Quiet := fun law => law.quiet (by rw [settling]; exact StopState.noConfusion)
  unfold Part.readSettling
  split
  · exact StopWork.refl s
  · dsimp only
    split
    · exact (s.onAxes_work _).trans (Part.declareStandstill_work was quiet)
    · exact s.onAxes_work _

theorem Part.readBraking_work {s : Part} (braking : s.seq.state = .braking) (cycle : CycleNo) :
    StopWork s (s.readBraking cycle) := by
  unfold Part.readBraking
  split
  · exact StopWork.refl s
  · exact (s.onAxes_work _).trans (Part.completeBraking_work fun law => law.quiet
      (show s.seq.state ≠ .running by rw [braking]; exact StopState.noConfusion))

theorem Part.readReadiness_work {s : Part} (arming : s.seq.state = .arming) (cycle : CycleNo) :
    StopWork s (s.readReadiness cycle) := by
  unfold Part.readReadiness
  split
  · exact StopWork.refl s
  · dsimp only
    split
    · have shown := s.onAxes_work fun a _ x =>
        { x with shown := s.gateway.feedback[Axis.slot a].status.showsReady }
      refine shown.trans (StopWork.trans ?_ ((Part.onAxes_work _ _).trans (Part.completeArming_work ?_)))
      · exact StopWork.seq _ rfl rfl rfl rfl
      · exact arming
    · exact s.onAxes_work _

theorem Part.readRelease_work {s : Part} (arming : s.seq.state = .arming) (cycle start : CycleNo) :
    StopWork s (s.readRelease cycle start) := by
  unfold Part.readRelease
  split
  · exact StopWork.refl s
  · exact (s.onAxes_work _).trans (Part.completeArming_work arming)

theorem Part.sequencerReading_work (s : Part) (cycle : CycleNo) : StopWork s (s.sequencerReading cycle) := by
  unfold Part.sequencerReading
  split
  case h_1 settling => exact Part.readSettling_work settling cycle
  case h_2 braking => exact Part.readBraking_work braking cycle
  case h_3 arming =>
    split
    · exact Part.readReadiness_work arming cycle
    · exact Part.readRelease_work arming cycle _
  all_goals exact StopWork.refl s

end Sys2Proof.Machine
end

section
/-! SETTLED. The arithmetic of the envelope (R47, R48, R50): the integer square root, the stopping distance, the
braking speed, and what a step of the shaper and of the stop generator keep. -/

namespace Sys2Proof.Machine

/-! ### The integer square root -/

theorem isqrtAux_spec (n : Nat) (bits r : Nat) (low : r * r ≤ n) (high : n < (r + 2 ^ bits) * (r + 2 ^ bits)) :
    isqrtAux n bits r * isqrtAux n bits r ≤ n ∧ n < (isqrtAux n bits r + 1) * (isqrtAux n bits r + 1) := by
  induction bits generalizing r with
  | zero => exact ⟨low, high⟩
  | succ bits ih =>
    unfold isqrtAux
    dsimp only
    split
    · rename_i fits
      have half : r + 2 ^ (bits + 1) = r + 2 ^ bits + 2 ^ bits := by
        rw [Nat.pow_succ, Nat.mul_two, Nat.add_assoc]
      exact ih _ fits (half ▸ high)
    · rename_i beyond
      exact ih _ low (Nat.lt_of_not_le beyond)

theorem isqrt_spec (n : Nat) : isqrt n * isqrt n ≤ n ∧ n < (isqrt n + 1) * (isqrt n + 1) := by
  refine isqrtAux_spec n _ 0 (Nat.zero_le _) ?_
  have half : n.log2 < 2 * (n.log2 / 2 + 1) := by omega
  calc n < 2 ^ (n.log2 + 1) := Nat.lt_log2_self
    _ ≤ 2 ^ (2 * (n.log2 / 2 + 1)) := Nat.pow_le_pow_right (by decide) half
    _ = (0 + 2 ^ (n.log2 / 2 + 1)) * (0 + 2 ^ (n.log2 / 2 + 1)) := by rw [Nat.two_mul, Nat.pow_add, Nat.zero_add]

/-! ### The stopping distance -/

/-- The sum 1 + 2 + ... + n, as R47 and R48 write it. -/
theorem triangle_succ (n : Nat) : (n + 1) * (n + 1 + 1) / 2 = n * (n + 1) / 2 + (n + 1) := by
  have : (n + 1) * (n + 1 + 1) = n * (n + 1) + 2 * (n + 1) := by grind
  rw [this]
  omega

theorem two_mul_triangle (n : Nat) : 2 * (n * (n + 1) / 2) = n * (n + 1) := by
  induction n with
  | zero => rfl
  | succ n ih =>
    rw [triangle_succ, Nat.mul_add, ih]
    grind

/-- The way covered from a speed a k + q on, the step at that speed included. -/
theorem reach_eq {a k q : Nat} (pos : 1 ≤ a) (le : q ≤ a) :
    a * k + q + stoppingDistance (a * k + q) a = a * (k * (k + 1) / 2) + (k + 1) * q := by
  have twice := two_mul_triangle k
  have square : k * (k + 1) / 2 ≤ k * k := by
    have := Nat.le_mul_self k
    have : k * (k + 1) = k * k + k := Nat.mul_succ k k
    omega
  rcases Nat.lt_or_eq_of_le le with lt | rfl
  · have quotient : (a * k + q) / a = k := by
      rw [Nat.mul_add_div (by omega), Nat.div_eq_of_lt lt, Nat.add_zero]
    have bound : a * (k * (k + 1) / 2) ≤ k * (a * k + q) :=
      calc a * (k * (k + 1) / 2) ≤ a * (k * k) := Nat.mul_le_mul_left a square
        _ ≤ a * (k * k) + k * q := Nat.le_add_right _ _
        _ = k * (a * k + q) := by grind
    simp only [stoppingDistance, quotient]
    generalize k * (k + 1) / 2 = triangle at twice bound ⊢
    obtain ⟨rest, whole⟩ := Nat.exists_eq_add_of_le bound
    rw [whole, Nat.add_sub_cancel_left]
    grind
  · have quotient : (q * k + q) / q = k + 1 := by
      rw [← Nat.mul_succ, Nat.mul_div_cancel_left _ (by omega)]
    have bound : q * (k * (k + 1) / 2 + (k + 1)) ≤ (k + 1) * (q * k + q) :=
      calc q * (k * (k + 1) / 2 + (k + 1)) ≤ q * (k * k + (k + 1)) :=
            Nat.mul_le_mul_left q (Nat.add_le_add_right square _)
        _ ≤ q * (k * k + (k + 1)) + q * k := Nat.le_add_right _ _
        _ = (k + 1) * (q * k + q) := by grind
    simp only [stoppingDistance, quotient, triangle_succ]
    generalize k * (k + 1) / 2 = triangle at twice bound ⊢
    obtain ⟨rest, whole⟩ := Nat.exists_eq_add_of_le bound
    rw [whole, Nat.add_sub_cancel_left]
    grind

theorem stoppingDistance_of_lt {v a : Nat} (lt : v < a) : stoppingDistance v a = 0 := by
  simp [stoppingDistance, Nat.div_eq_of_lt lt]

/-- R48, one step of the run down. -/
theorem stoppingDistance_add {a : Nat} (pos : 1 ≤ a) (v : Nat) :
    stoppingDistance (v + a) a = v + stoppingDistance v a := by
  have rest := Nat.div_add_mod v a
  have le : v % a ≤ a := Nat.le_of_lt (Nat.mod_lt _ pos)
  have now := reach_eq (k := v / a) pos le
  have next := reach_eq (k := v / a + 1) pos le
  rw [rest] at now
  rw [show a * (v / a + 1) + v % a = v + a by rw [Nat.mul_succ]; omega, triangle_succ] at next
  have further : a * (v / a * (v / a + 1) / 2 + (v / a + 1)) + (v / a + 1 + 1) * (v % a) =
      a * (v / a * (v / a + 1) / 2) + (v / a + 1) * (v % a) + (a * (v / a) + v % a) + a := by grind
  omega

theorem stoppingDistance_step {v a : Nat} (pos : 1 ≤ a) (le : a ≤ v) :
    stoppingDistance v a = (v - a) + stoppingDistance (v - a) a := by
  rw [← stoppingDistance_add pos, Nat.sub_add_cancel le]

theorem stoppingDistance_of_le {v a : Nat} (pos : 1 ≤ a) (le : v ≤ a) : stoppingDistance v a = 0 := by
  rcases Nat.lt_or_eq_of_le le with lt | rfl
  · exact stoppingDistance_of_lt lt
  · rw [stoppingDistance_step pos le, Nat.sub_self, stoppingDistance_of_lt pos]

theorem stoppingDistance_mono {a : Nat} (pos : 1 ≤ a) {v w : Nat} (le : v ≤ w) :
    stoppingDistance v a ≤ stoppingDistance w a := by
  induction w using Nat.strongRecOn generalizing v with
  | ind w ih =>
    rcases Nat.lt_or_ge v a with lt | ge
    · rw [stoppingDistance_of_lt lt]
      exact Nat.zero_le _
    · rw [stoppingDistance_step pos ge, stoppingDistance_step pos (Nat.le_trans ge le)]
      have := ih (w - a) (by omega) (v := v - a) (by omega)
      omega

theorem stoppingDistance_anti {a b : Nat} (pos : 1 ≤ a) (le : a ≤ b) (v : Nat) :
    stoppingDistance v b ≤ stoppingDistance v a := by
  induction v using Nat.strongRecOn with
  | ind v ih =>
    rcases Nat.lt_or_ge v b with lt | ge
    · rw [stoppingDistance_of_lt lt]
      exact Nat.zero_le _
    · rw [stoppingDistance_step (Nat.le_trans pos le) ge, stoppingDistance_step pos (Nat.le_trans le ge)]
      have shorter := stoppingDistance_mono (Nat.le_trans pos le) (show v - b ≤ v - a by omega)
      have := ih (v - a) (by omega)
      omega

theorem stoppingDistance_sum {a : Nat} (pos : 1 ≤ a) (v : Nat) :
    stoppingDistance v a = ((List.range (v / a)).map fun i => v - (i + 1) * a).sum := by
  induction v using Nat.strongRecOn with
  | ind v ih =>
    rcases Nat.lt_or_ge v a with lt | ge
    · rw [stoppingDistance_of_lt lt, Nat.div_eq_of_lt lt]
      rfl
    · have count : v / a = (v - a) / a + 1 := by rw [← Nat.add_div_right _ pos, Nat.sub_add_cancel ge]
      rw [stoppingDistance_step pos ge, ih (v - a) (by omega), count, List.range_succ_eq_map]
      simp only [List.map_cons, List.map_map, List.sum_cons, Nat.zero_add, Nat.one_mul]
      congr 2
      refine List.map_congr_left fun i _ => ?_
      simp only [Function.comp_apply, Nat.succ_eq_add_one]
      rw [Nat.sub_sub, show (i + 1 + 1) * a = a + (i + 1) * a by grind]

/-! ### The braking speed -/

/-- The number of whole steps of R47: the largest k whose triangle of decelerations fits the distance. -/
theorem brakingSteps_spec (d : Nat) {a : Nat} (pos : 1 ≤ a) :
    let k := (isqrt (4 * (2 * d / a) + 1) - 1) / 2
    a * (k * (k + 1) / 2) ≤ d ∧ d < a * (k * (k + 1) / 2) + a * (k + 1) := by
  intro k
  obtain ⟨low, high⟩ := isqrt_spec (4 * (2 * d / a) + 1)
  have root : 1 ≤ isqrt (4 * (2 * d / a) + 1) := by
    refine Nat.pos_of_ne_zero fun h => ?_
    rw [show isqrt (4 * (2 * d / a) + 1) = 0 by omega] at high
    omega
  have kLow : 2 * k + 1 ≤ isqrt (4 * (2 * d / a) + 1) := by omega
  have kHigh : isqrt (4 * (2 * d / a) + 1) + 1 ≤ 2 * k + 3 := by omega
  have fits : k * (k + 1) ≤ 2 * d / a := by
    have square := Nat.le_trans (Nat.mul_le_mul kLow kLow) low
    grind
  have beyond : 2 * d / a < (k + 1) * (k + 2) := by
    have square := Nat.lt_of_lt_of_le high (Nat.mul_le_mul kHigh kHigh)
    grind
  have twice := two_mul_triangle k
  have whole : 2 * d / a * a ≤ 2 * d := Nat.div_mul_le_self _ _
  have part : 2 * d < (2 * d / a + 1) * a := by
    rw [Nat.mul_comm _ a]; exact Nat.lt_mul_div_succ _ pos
  generalize k * (k + 1) / 2 = triangle at twice ⊢
  constructor
  · have scaled := Nat.le_trans (Nat.mul_le_mul_right a fits) whole
    have twiceScaled : k * (k + 1) * a = 2 * (a * triangle) := by rw [← twice]; grind
    omega
  · have scaled := Nat.lt_of_lt_of_le part (Nat.mul_le_mul_right a beyond)
    have twiceScaled : (k + 1) * (k + 2) * a = 2 * (a * triangle) + 2 * (a * (k + 1)) := by
      have product : (k + 1) * (k + 2) = 2 * triangle + 2 * (k + 1) := by rw [twice]; grind
      rw [product]
      grind
    omega

theorem brakingSpeed_stops (d : Nat) {a : Nat} (pos : 1 ≤ a) :
    brakingSpeed d a + stoppingDistance (brakingSpeed d a) a ≤ d ∧
      d < brakingSpeed d a + 1 + stoppingDistance (brakingSpeed d a + 1) a := by
  obtain ⟨fits, beyond⟩ := brakingSteps_spec d pos
  generalize eq : (isqrt (4 * (2 * d / a) + 1) - 1) / 2 = k at fits beyond
  have speed : brakingSpeed d a = a * k + (d - a * (k * (k + 1) / 2)) / (k + 1) := by
    simp only [brakingSpeed, eq]
  generalize rest : (d - a * (k * (k + 1) / 2)) / (k + 1) = q at speed
  have qLt : q < a := by
    rw [← rest]
    exact Nat.div_lt_of_lt_mul (by rw [Nat.mul_comm (k + 1)]; omega)
  have qLow : (k + 1) * q ≤ d - a * (k * (k + 1) / 2) := by rw [← rest]; exact Nat.mul_div_le _ _
  have qHigh : d - a * (k * (k + 1) / 2) < (k + 1) * (q + 1) := by
    rw [← rest]; exact Nat.lt_mul_div_succ _ (Nat.succ_pos _)
  have now := reach_eq (k := k) pos (Nat.le_of_lt qLt)
  have next := reach_eq (k := k) pos (show q + 1 ≤ a from qLt)
  rw [← Nat.add_assoc] at next
  rw [speed]
  omega

theorem le_brakingSpeed {d a w : Nat} (pos : 1 ≤ a) (stops : w + stoppingDistance w a ≤ d) :
    w ≤ brakingSpeed d a := by
  refine Nat.le_of_not_lt fun faster => ?_
  have further := stoppingDistance_mono pos (show brakingSpeed d a + 1 ≤ w by omega)
  have := (brakingSpeed_stops d pos).2
  omega

/-- Settles O43: B and D by their recurrences. -/
theorem brakingSpeedIsLargest : Obligations.BrakingSpeedIsLargest := by
  unfold Obligations.BrakingSpeedIsLargest
  refine ⟨fun d a pos => ?_, fun v a pos => ?_⟩
  · have stops := (brakingSpeed_stops d pos).1
    have atMost (d : Nat) : brakingSpeed d a ≤ d := Nat.le_trans (Nat.le_add_right _ _) (brakingSpeed_stops d pos).1
    refine ⟨stops, fun w => le_brakingSpeed pos, atMost d, fun lt => ?_, Nat.le_zero.1 (atMost 0)⟩
    exact Nat.le_antisymm (atMost d) (le_brakingSpeed pos (by rw [stoppingDistance_of_lt lt]; omega))
  · exact ⟨stoppingDistance_sum pos v, stoppingDistance_of_le pos, fun w => stoppingDistance_mono pos,
      fun b le => stoppingDistance_anti pos le v⟩

/-! ### The stop generator -/

/-- A step of the generator leaves the stopping extent at the latched deceleration where it is. -/
theorem Channel.generate_extent {ch : Channel} (pos : 1 ≤ ch.rampDecel) :
    stoppingExtent ch.generate.p ch.generate.v ch.rampDecel = stoppingExtent ch.p ch.v ch.rampDecel := by
  obtain ⟨_, p, v, _, _, a, _⟩ := ch
  simp only [Channel.generate, stoppingExtent] at pos ⊢
  rcases Nat.lt_or_ge v.natAbs a with lt | ge
  · rw [Int.max_eq_right (by omega), stoppingDistance_of_lt lt]
    simp
  · rw [Int.max_eq_left (by omega), stoppingDistance_step pos ge]
    rcases Int.lt_trichotomy v 0 with neg | rfl | positive
    · have size : (v.sign * ((v.natAbs : Int) - a)).natAbs = v.natAbs - a := by
        rw [Int.sign_eq_neg_one_of_neg neg]; omega
      rcases Nat.eq_or_lt_of_le ge with same | more
      · simp [← same, stoppingDistance_of_lt pos]
      · rw [size, Int.sign_eq_neg_one_of_neg neg, Int.sign_eq_neg_one_of_neg (by omega)]
        grind
    · simp
    · have size : (v.sign * ((v.natAbs : Int) - a)).natAbs = v.natAbs - a := by
        rw [Int.sign_eq_one_of_pos positive]; omega
      rcases Nat.eq_or_lt_of_le ge with same | more
      · simp [← same, stoppingDistance_of_lt pos]
      · rw [size, Int.sign_eq_one_of_pos positive, Int.sign_eq_one_of_pos (by omega)]
        grind

theorem Channel.generate_speed (ch : Channel) : ch.generate.v.natAbs = ch.v.natAbs - ch.rampDecel := by
  simp only [Channel.generate, Int.natAbs_mul]
  by_cases zero : ch.v = 0
  · simp [zero]
  · have moving : ch.v ≠ 0 := zero
    rw [Int.natAbs_sign_of_ne_zero moving]
    omega

theorem Channel.stoppingExtent_at_rest (p : Int) (a : Nat) : stoppingExtent p 0 a = p := by
  simp [stoppingExtent]

theorem Channel.generateN_rests (n : Nat) (ch : Channel) (pos : 1 ≤ ch.rampDecel)
    (enough : ch.v.natAbs / ch.rampDecel < n) :
    (Channel.generateN n ch).v = 0 ∧ (Channel.generateN n ch).p = stoppingExtent ch.p ch.v ch.rampDecel := by
  induction n generalizing ch with
  | zero => exact absurd enough (Nat.not_lt_zero _)
  | succ n ih =>
    have extent := Channel.generate_extent pos
    have speed := ch.generate_speed
    rcases Nat.lt_or_ge (ch.generate.v.natAbs / ch.rampDecel) n with more | last
    · rw [← extent]
      exact ih ch.generate pos more
    · have slow : ch.v.natAbs < ch.rampDecel := by
        refine Nat.lt_of_not_le fun fast => ?_
        have count : ch.v.natAbs / ch.rampDecel = (ch.v.natAbs - ch.rampDecel) / ch.rampDecel + 1 := by
          rw [← Nat.add_div_right _ pos, Nat.sub_add_cancel fast]
        rw [speed] at last
        omega
      have n0 : n = 0 := by
        rw [speed, Nat.sub_eq_zero_of_le (Nat.le_of_lt slow), Nat.zero_div] at last
        omega
      have rest : ch.generate.v = 0 := Int.natAbs_eq_zero.1 (by omega)
      subst n0
      refine ⟨rest, ?_⟩
      rw [← extent, rest, Channel.stoppingExtent_at_rest]
      rfl

/-- Settles O44: each step of the generator keeps the stopping extent and takes the deceleration off the
speed. -/
theorem rampEndsAtStoppingExtent : Obligations.RampEndsAtStoppingExtent := by
  unfold Obligations.RampEndsAtStoppingExtent
  exact fun ch n pos enough => Channel.generateN_rests n ch pos enough

end Sys2Proof.Machine
end

section
set_option Elab.async false
/-! SETTLED. The envelope: a step of the shaper and a step of the stop generator keep the shaped position and the
stopping extent inside the window (R51). -/

namespace Sys2Proof.Machine

/-! ### One side of the window -/

theorem stoppingExtent_neg (p v : Int) (a : Nat) : stoppingExtent (-p) (-v) a = -stoppingExtent p v a := by
  simp only [stoppingExtent, Int.sign_neg, Int.natAbs_neg]
  grind

theorem stoppingExtent_of_pos {p v : Int} (pos : 0 < v) (a : Nat) :
    stoppingExtent p v a = p + stoppingDistance v.natAbs a := by
  rw [stoppingExtent, Int.sign_eq_one_of_pos pos, Int.one_mul]

theorem stoppingExtent_le_of_nonpos {p v : Int} (nonpos : v ≤ 0) (a : Nat) : stoppingExtent p v a ≤ p := by
  have : v.sign * (stoppingDistance v.natAbs a : Int) ≤ 0 :=
    Int.mul_nonpos_of_nonpos_of_nonneg (Int.sign_nonpos_iff.2 nonpos) (Int.natCast_nonneg _)
  unfold stoppingExtent
  omega

/-- A velocity x that brakes as hard as it may, or is at most a speed t that stops in time, keeps the upper end of
the window. -/
theorem upper_kept {p v x t hi : Int} {a : Nat} (pos : 1 ≤ a) (inside : p ≤ hi)
    (extent : stoppingExtent p v a ≤ hi) (brakes : x ≤ max (v - a) t)
    (stops : t ≤ 0 ∨ p + (t + stoppingDistance t.natAbs a) ≤ hi) :
    p + x ≤ hi ∧ stoppingExtent (p + x) x a ≤ hi := by
  rcases (Int.lt_or_le 0 x).symm with back | ahead
  · have := stoppingExtent_le_of_nonpos (p := p + x) back a
    omega
  · have reach : p + x + stoppingDistance x.natAbs a ≤ hi := by
      have either : x ≤ v - a ∨ x ≤ t := by omega
      rcases either with hard | slow
      · have fast : a ≤ v.natAbs := by omega
        have shorter := stoppingDistance_mono pos (show x.natAbs ≤ v.natAbs - a by omega)
        rw [stoppingExtent_of_pos (by omega), stoppingDistance_step pos fast] at extent
        omega
      · have shorter := stoppingDistance_mono pos (show x.natAbs ≤ t.natAbs by omega)
        omega
    rw [stoppingExtent_of_pos ahead]
    omega

theorem lower_kept {p v x t lo : Int} {a : Nat} (pos : 1 ≤ a) (inside : lo ≤ p)
    (extent : lo ≤ stoppingExtent p v a) (brakes : min (v + a) t ≤ x)
    (stops : 0 ≤ t ∨ lo ≤ p + (t - stoppingDistance t.natAbs a)) :
    lo ≤ p + x ∧ lo ≤ stoppingExtent (p + x) x a := by
  have mirror := upper_kept (p := -p) (v := -v) (x := -x) (t := -t) (hi := -lo) pos (by omega)
    (by rw [stoppingExtent_neg]; omega) (by omega) (by rw [Int.natAbs_neg]; omega)
  rw [← Int.neg_add, stoppingExtent_neg] at mirror
  omega

/-! ### The steps -/

/-- The speed wanted for an error e, before the change of velocity is limited: it stops within the error. -/
theorem wantedSpeed_stops (e : Int) {a : Nat} (pos : 1 ≤ a) (veff : Nat) :
    let t := clamp (e.sign * (brakingSpeed e.natAbs a : Int)) (-(veff : Int)) veff
    (t ≤ 0 ∨ t + stoppingDistance t.natAbs a ≤ e) ∧ (0 ≤ t ∨ e ≤ t - stoppingDistance t.natAbs a) := by
  intro t
  have stops := (brakingSpeed_stops e.natAbs pos).1
  have within : t.natAbs ≤ brakingSpeed e.natAbs a := by
    simp only [t, clamp]
    rcases Int.sign_trichotomy e with h | h | h <;> rw [h] <;> omega
  have shorter := stoppingDistance_mono pos within
  rcases Int.lt_trichotomy e 0 with neg | rfl | positive
  · have : t ≤ 0 := by simp only [t, clamp, Int.sign_eq_neg_one_of_neg neg]; omega
    omega
  · have : t = 0 := by simp only [t, clamp, Int.sign_zero]; omega
    omega
  · have : 0 ≤ t := by simp only [t, clamp, Int.sign_eq_one_of_pos positive]; omega
    omega

theorem clamp_between {x lo hi : Int} (le : lo ≤ hi) : lo ≤ clamp x lo hi ∧ clamp x lo hi ≤ hi := by
  unfold clamp
  omega

theorem clamp_of_between {x lo hi : Int} (low : lo ≤ x) (high : x ≤ hi) : clamp x lo hi = x := by
  unfold clamp
  omega

/-- R51 for a step of R45. -/
theorem Channel.shape_inWindow {ch : Channel} {w : Int × Int} {amax : Nat} (r : Int) (veff : Nat) (pos : 1 ≤ amax)
    (ordered : w.1 ≤ w.2) (inside : ch.InWindow w amax) : (ch.shape r w amax veff).InWindow w amax := by
  obtain ⟨low, high, extentLow, extentHigh⟩ := inside
  obtain ⟨rcLow, rcHigh⟩ := clamp_between (x := r) ordered
  obtain ⟨up, down⟩ := wantedSpeed_stops (clamp r w.1 w.2 - ch.p) pos veff
  generalize speed : clamp ((clamp r w.1 w.2 - ch.p).sign *
    (brakingSpeed (clamp r w.1 w.2 - ch.p).natAbs amax : Int)) (-(veff : Int)) veff = t at up down
  have next : nextVelocity ch.p ch.v (clamp r w.1 w.2) amax veff = clamp t (ch.v - amax) (ch.v + amax) := by
    simp only [nextVelocity, speed]
  have upper := upper_kept (x := clamp t (ch.v - amax) (ch.v + amax)) (t := t) pos high extentHigh
    (by simp only [clamp]; omega) (by omega)
  have lower := lower_kept (x := clamp t (ch.v - amax) (ch.v + amax)) (t := t) pos low extentLow
    (by simp only [clamp]; omega) (by omega)
  unfold Channel.InWindow
  simp only [Channel.shape, next]
  omega

theorem Channel.shape_speed (ch : Channel) (r : Int) (w : Int × Int) (amax veff : Nat) :
    ((ch.shape r w amax veff).v - ch.v).natAbs ≤ amax := by
  simp only [Channel.shape, nextVelocity]
  have := clamp_between (x := clamp ((clamp r w.1 w.2 - ch.p).sign *
    (brakingSpeed (clamp r w.1 w.2 - ch.p).natAbs amax : Int)) (-(veff : Int)) veff)
    (show ch.v - amax ≤ ch.v + (amax : Int) by omega)
  omega

/-- A narrower window: a request clamped to it is shaped towards as in the wider one. -/
theorem Channel.shape_inWider {ch : Channel} {w wide : Int × Int} {amax : Nat} (r : Int) (veff : Nat)
    (pos : 1 ≤ amax) (ordered : w.1 ≤ w.2) (low : wide.1 ≤ w.1) (high : w.2 ≤ wide.2)
    (inside : ch.InWindow wide amax) : (ch.shape r w amax veff).InWindow wide amax := by
  have between := clamp_between (x := r) ordered
  have same : ch.shape r w amax veff = ch.shape (clamp r w.1 w.2) wide amax veff := by
    simp only [Channel.shape,
      clamp_of_between (show wide.1 ≤ clamp r w.1 w.2 by omega) (show clamp r w.1 w.2 ≤ wide.2 by omega)]
  rw [same]
  exact Channel.shape_inWindow _ _ pos (by omega) inside

/-- R50: a ramp at a latched deceleration of at least Amax stays inside the window. -/
theorem Channel.generate_inWindow {ch : Channel} {w : Int × Int} {amax : Nat} (pos : 1 ≤ amax)
    (steep : amax ≤ ch.rampDecel) (inside : ch.InWindow w amax) : ch.generate.InWindow w amax := by
  obtain ⟨low, high, extentLow, extentHigh⟩ := inside
  have slower : min (ch.v + amax) 0 ≤ ch.generate.v ∧ ch.generate.v ≤ max (ch.v - amax) 0 := by
    simp only [Channel.generate]
    rcases Int.lt_trichotomy ch.v 0 with neg | zero | positive
    · rw [Int.sign_eq_neg_one_of_neg neg]; omega
    · rw [zero, Int.sign_zero]; omega
    · rw [Int.sign_eq_one_of_pos positive]; omega
  have upper := upper_kept pos high extentHigh slower.2 (.inl (Int.le_refl _))
  have lower := lower_kept pos low extentLow slower.1 (.inl (Int.le_refl _))
  unfold Channel.InWindow
  show w.1 ≤ ch.p + ch.generate.v ∧ ch.p + ch.generate.v ≤ w.2 ∧ _
  exact ⟨lower.1, upper.1, lower.2, upper.2⟩

/-- A channel that takes up its state at rest does so inside any window its own lies in. -/
theorem Channel.follow_inWindow (ch : Channel) (actual : Int) {w wide : Int × Int} (amax : Nat)
    (ordered : w.1 ≤ w.2) (low : wide.1 ≤ w.1) (high : w.2 ≤ wide.2) :
    (ch.follow actual w).InWindow wide amax := by
  have between := clamp_between (x := actual * 65536) ordered
  unfold Channel.InWindow
  simp only [Channel.follow, Channel.stoppingExtent_at_rest]
  omega

/-! ### Windows of lens channels -/

/-- R108: an effective window lies in the axis window. -/
theorem lensWindow_inside {a : AxisRecord} (sane : a.pmin ≤ a.pmax) (mode : LensMode) (table : List LensPair) :
    a.pmin ≤ (lensWindow a mode table).1 ∧ (lensWindow a mode table).1 ≤ (lensWindow a mode table).2 ∧
      (lensWindow a mode table).2 ≤ a.pmax := by
  unfold lensWindow
  dsimp only
  split
  · split
    · dsimp only; omega
    · split <;> dsimp only <;> omega
  · dsimp only; omega

theorem Part.window_inside (s : Part) (c : Slot) (sane : s.shaper.axes[c].pmin ≤ s.shaper.axes[c].pmax) :
    s.shaper.axes[c].pmin ≤ (s.window c).1 ∧ (s.window c).1 ≤ (s.window c).2 ∧
      (s.window c).2 ≤ s.shaper.axes[c].pmax := by
  unfold Part.window
  split
  · exact ⟨Int.le_refl _, sane, Int.le_refl _⟩
  · exact lensWindow_inside sane _ _

/-- A window of counts in another one: so in fine units. -/
theorem fineWindow_inside {w wide : Int × Int} (inside : wide.1 ≤ w.1 ∧ w.1 ≤ w.2 ∧ w.2 ≤ wide.2) :
    wide.1 * 65536 ≤ (fineWindow w).1 ∧ (fineWindow w).1 ≤ (fineWindow w).2 ∧
      (fineWindow w).2 ≤ wide.2 * 65536 := by
  simp only [fineWindow]
  omega

/-! ### The shaper's step -/

theorem Part.stepChannel_same (s : Part) (requests : Vector Int 12) (c : Slot) :
    (s.stepChannel requests c).source = s.shaper.chans[c].source ∧
      (s.stepChannel requests c).rampDecel = s.shaper.chans[c].rampDecel := by
  simp only [Part.stepChannel]
  split <;> exact ⟨rfl, rfl⟩

theorem Part.stepChannel_inWindow {s : Part} (law : s.WindowLaw) (requests : Vector Int 12) {c : Slot}
    (present : s.shaper.axes[c].present = true) (moves : s.shaper.chans[c].source ≠ .track)
    (driven : ∀ l : LensIx, c = LensIx.slot l → s.lens.chans[l].mode ≠ .off) :
    (s.stepChannel requests c).InWindow (s.shaper.axes[c].pmin * 65536, s.shaper.axes[c].pmax * 65536)
      s.shaper.axes[c].amax := by
  have inside := law.inside c present moves driven
  obtain ⟨ordered, pos, _⟩ := law.sane c
  obtain ⟨low, middle, high⟩ := fineWindow_inside (wide := (s.shaper.axes[c].pmin, s.shaper.axes[c].pmax))
    (s.window_inside c ordered)
  have shaped (veff : Nat) := Channel.shape_inWider requests[c] veff pos middle low high inside
  simp only [Part.stepChannel]
  split
  case h_4 stop => exact Channel.generate_inWindow pos (law.ramp c present stop) inside
  case h_5 track => exact absurd track moves
  all_goals exact shaped _

@[simp] theorem Part.stepShaper_get (s : Part) (requests : Vector Int 12) (c : Slot) :
    (s.stepShaper requests).chans[c] = s.stepChannel requests c := by
  simp [Part.stepShaper]

theorem Part.stepShaper_window {s : Part} (law : s.WindowLaw) (requests : Vector Int 12) :
    ({ s with shaper := s.stepShaper requests } : Part).WindowLaw := by
  have source (c : Slot) := (s.stepChannel_same requests c).1
  have ramp (c : Slot) := (s.stepChannel_same requests c).2
  constructor
  case sane => exact law.sane
  case setup => intro h c; rw [Part.stepShaper_get, source]; exact law.setup h c
  case motion => intro a present; rw [Part.stepShaper_get, source]; exact law.motion a present
  case lens => intro l h present driven; rw [Part.stepShaper_get, source]; exact law.lens l h present driven
  case inside =>
    intro c present moves driven
    rw [Part.stepShaper_get, source] at moves
    rw [Part.stepShaper_get]
    exact Part.stepChannel_inWindow law requests present moves driven
  case ramp =>
    intro c present stop
    rw [Part.stepShaper_get, source] at stop
    rw [Part.stepShaper_get, ramp]
    exact law.ramp c present stop

/-- The window law looks at the modes of the lens mapper only. -/
theorem Part.WindowLaw.of_modes {s : Part} (law : s.WindowLaw) (m : LensMapper)
    (modes : ∀ l : LensIx, m.chans[l].mode = s.lens.chans[l].mode) : ({ s with lens := m } : Part).WindowLaw where
  sane := law.sane
  setup := law.setup
  motion := law.motion
  lens := fun l run present driven => law.lens l run present (modes l ▸ driven)
  inside := fun c present moves driven => law.inside c present moves fun l h => modes l ▸ driven l h
  ramp := law.ramp

end Sys2Proof.Machine
end

section
set_option Elab.async false
/-! SETTLED. The laws over a served cycle and a returned drive frame. -/

namespace Sys2Proof.Machine

theorem bump255_le (n : Nat) : bump255 n ≤ 255 := Nat.min_le_left _ _

/-! ### The player at the serving -/

theorem Part.pollAllowed_running {s : Part} (allowed : s.pollAllowed = true) : s.seq.state = .running := by
  simp only [Part.pollAllowed, Bool.and_eq_true, decide_eq_true_eq] at allowed
  exact allowed.1.2

theorem Part.checkAutoPoll_work (s : Part) : ArrayWork s s.checkAutoPoll := by
  have counted : ArrayWork s { s with player := { s.player with autoCount := 0 } } :=
    { autoPoll := fun _ => Nat.zero_le _ }
  unfold Part.checkAutoPoll
  split
  · dsimp only
    split
    · rename_i allowed
      exact counted.trans (Part.fetchNow_work _ fun _ => Part.pollAllowed_running allowed)
    · exact counted
  · exact ArrayWork.refl s

theorem Part.starve_work (s : Part) : StopWork s s.starve := (s.post_work _ _ _).trans {}

theorem Part.playStep_work (s : Part) (busy : s.player.state.idle = false) : StopWork s s.playStep := by
  unfold Part.playStep
  dsimp only
  split
  · exact s.starve_work
  · rename_i st _
    have made := s.makeStep_work s.player.nextTau st busy
    split
    · exact (made.toStopWork.trans (Part.tellRecorder_work _).toStopWork.loosen).kicked
    · exact made.toStopWork.kicked

theorem Part.playerServing_work (s : Part) : StopWork s s.playerServing := by
  unfold Part.playerServing
  split
  case h_1 =>
    exact StopWork.trans (t := { s with player := { s.player with autoCount := bump65535 s.player.autoCount } })
      { autoPoll := fun _ => bump65535_le _ } (Part.checkAutoPoll_work _).toStopWork
  case h_2 waiting =>
    split
    · exact (s.enterPlaying_work (by rw [waiting]; rfl)).toStopWork.trans (Part.playStep_work _ rfl)
    · exact StopWork.refl s
  case h_3 playing => exact s.playStep_work (by rw [playing]; rfl)
  all_goals exact StopWork.refl s

/-! ### The requests of the cycle -/

theorem LensChannel.formLive_mode (c : LensChannel) (input : Option Int) : (c.formLive input).1.mode = c.mode := by
  unfold LensChannel.formLive
  split <;> rfl

theorem LensChannel.formTake_mode (c : LensChannel) (value : Int) : (c.formTake value).1.mode = c.mode := by
  unfold LensChannel.formTake
  split <;> rfl

theorem LensChannel.formParked_mode (c : LensChannel) (park : Int) : (c.formParked park).mode = c.mode := by
  unfold LensChannel.formParked
  split <;> rfl

theorem Part.lensRequest_mode (s : Part) (l : LensIx) : (s.lensRequest l).1.mode = s.lens.chans[l].mode := by
  simp only [Part.lensRequest]
  split
  · exact LensChannel.formLive_mode _ _
  · exact LensChannel.formTake_mode _ _
  · exact LensChannel.formParked_mode _ _
  · rfl
  · rfl

theorem LensChannel.install_mode (c : LensChannel) : c.install.mode = c.mode := by
  unfold LensChannel.install
  split <;> rfl

theorem LensChannel.setLastDemand_mode (c : LensChannel) (count : Int) : (c.setLastDemand count).mode = c.mode := by
  unfold LensChannel.setLastDemand
  split <;> rfl

/-- A change of the lens mapper in which every channel keeps its mode. -/
theorem Keeps.lens {s : Part} (m : LensMapper) (modes : ∀ l : LensIx, m.chans[l].mode = s.lens.chans[l].mode) :
    Keeps s { s with lens := m } where
  window := fun _ _ law => law.of_modes m modes

theorem Part.startLenses_keeps (s : Part) : Keeps s s.startLenses :=
  Keeps.lens _ fun l => by simp [LensMapper.install, LensChannel.install_mode]

theorem Part.formLenses_keeps (s : Part) : Keeps s { s with lens := s.formLenses } :=
  Keeps.lens _ fun l => by simp [Part.formLenses, Part.lensRequest_mode]

/-! ### After the shaper's step -/

theorem Part.stepShaper_keeps (s : Part) (requests : Vector Int 12) :
    Keeps s { s with shaper := s.stepShaper requests } where
  window := fun _ _ law => Part.stepShaper_window law requests

theorem Part.diverge_work (s : Part) (c : Slot) : StopWork s (s.diverge c) := (s.post_work _ _ _).trans {}

theorem Part.checkDivergence_work (s : Part) (requests : Vector Int 12) : StopWork s (s.checkDivergence requests) := by
  have all (cs : List Slot) (t : Part) : StopWork t (cs.foldl (fun t c => t.diverge c) t) := by
    induction cs generalizing t with
    | nil => exact StopWork.refl t
    | cons c cs ih => exact (t.diverge_work c).trans (ih _)
  unfold Part.checkDivergence
  split
  · exact all _ s
  · exact StopWork.refl s

theorem ZoneEntry.grow_scale (z : ZoneEntry) : z.grow.scale = z.scale := by
  unfold ZoneEntry.grow
  split <;> rfl

/-- R74: the speed scale of a table of scales in their range. -/
theorem ZoneMonitor.speedScale_range {z : ZoneMonitor}
    (zones : ∀ i : ZoneIx, 256 ≤ z.zones[i].scale ∧ z.zones[i].scale ≤ 4095) :
    256 ≤ z.speedScale ∧ z.speedScale ≤ 4096 := by
  obtain ⟨most, -, -, eq⟩ := z.speedScale_worksOut
  refine ⟨?_, most⟩
  rcases eq with eq | ⟨-, eq⟩ | ⟨i, -, eq⟩
  · omega
  · omega
  · have := zones i
    omega

/-- A zone monitor whose table keeps its scales, the speed scale worked out anew. -/
theorem Keeps.zone {s : Part} (z : ZoneMonitor)
    (scales : (∀ i : ZoneIx, 256 ≤ s.zone.zones[i].scale ∧ s.zone.zones[i].scale ≤ 4095) →
      ∀ i : ZoneIx, 256 ≤ z.zones[i].scale ∧ z.zones[i].scale ≤ 4095)
    (recovery : s.RecoveryLaw → s.seq.state = .safeOff → z.recovery = false) :
    Keeps s { s with zone := z, shaper := { s.shaper with sigma := z.speedScale } } where
  scale := fun h =>
    have range := ZoneMonitor.speedScale_range (scales h.zones)
    ⟨range.1, range.2, scales h.zones⟩
  recovery := recovery

theorem Part.zoneTests_work (s : Part) : StopWork s s.zoneTests := by
  unfold Part.zoneTests
  split
  · exact Part.postAll_work _ s
  · exact StopWork.refl s

theorem ZoneMonitor.update_recovery (z : ZoneMonitor) (sh : Shaper) : (z.update sh).recovery = z.recovery := rfl

theorem Part.zoneWork_keeps (s : Part) : Keeps s s.zoneWork := by
  have updated : Keeps s { s with zone := s.zone.update s.shaper } :=
    { recovery := fun law off => (ZoneMonitor.update_recovery s.zone s.shaper).trans (law off)
      scale := fun h => ⟨h.1, h.2, fun i => by
        simpa [ZoneMonitor.update, ZoneMonitor.remask, ZoneMonitor.ageZones, ZoneEntry.grow_scale] using h.zones i⟩ }
  refine (updated.trans (Part.zoneTests_work _).toKeeps).trans (Keeps.zone _ id fun law off => ?_)
  simp only [ZoneMonitor.checkRecovery, law off, Bool.false_and]

theorem Part.checkRampEnd_work (s : Part) (was : Bool) : StopWork s (s.checkRampEnd was) := by
  unfold Part.checkRampEnd
  split
  · rename_i h
    exact Part.enterSettling_work (by rw [h.2.1]; exact StopState.noConfusion)
      fun law => law.quiet (by rw [h.2.1]; exact StopState.noConfusion)
  · exact StopWork.refl s

theorem Part.enterWaiting_work (s : Part) (busy : s.player.state.idle = false) : ArrayWork s s.enterWaiting := by
  have waits : ArrayWork s { s with player := { s.player with state := .waiting } } :=
    { play := fun law => .of_running (law.running_of_busy busy) }
  exact (waits.loosen.trans ((Part.fillPrefetch_work _).trans (Part.takeLatchedGo_work _).loosen)).kicked

theorem Part.arrivalReport_work (s : Part) (requests : Vector Int 12) : ArrayWork s (s.arrivalReport requests) := by
  unfold Part.arrivalReport
  split
  case h_1 approaching =>
    split
    · exact s.enterWaiting_work (by rw [approaching]; rfl)
    · exact ArrayWork.refl s
  case h_2 closing =>
    split
    · exact (s.endCue_work (by rw [closing]; rfl)).kicked
    · exact ArrayWork.refl s
  all_goals exact ArrayWork.refl s

/-! ### The frames -/

theorem Part.emitReturn_keeps (s : Part) (cycle : CycleNo) : Keeps s (s.emitReturn cycle) := {}

theorem Part.settleOutstanding_keeps (s : Part) : Keeps s s.settleOutstanding := by
  unfold Part.settleOutstanding
  split
  · exact Keeps.refl s
  · rename_i o _
    have told : Keeps s (Part.emitReturn { s with gateway := s.gateway.allStale } o.cycle) :=
      Keeps.trans (t := { s with gateway := s.gateway.allStale }) {} (Part.emitReturn_keeps _ _)
    have missed (t : Part) : Keeps t { t with gateway := { t.gateway with
        driveMiss := bump255 t.gateway.driveMiss, outstanding := none } } :=
      { driveMiss := fun _ => bump255_le _ }
    dsimp only
    split
    · exact (told.trans (missed _)).trans (Part.post_work _ _ _ _).toKeeps
    · exact told.trans (missed _)

theorem Part.emitDrive_keeps (s : Part) (setpoints : Vector Int 12) : Keeps s (s.emitDrive setpoints) :=
  s.settleOutstanding_keeps.trans {}

theorem Part.stepAndEmit_keeps (s : Part) : Keeps s s.stepAndEmit := by
  unfold Part.stepAndEmit
  refine Keeps.trans ?_ (Part.emitDrive_keeps _ _)
  refine Keeps.trans ?_ (Part.arrivalReport_work _ _).toKeeps
  refine Keeps.trans ?_ (Part.checkRampEnd_work _ _).toKeeps
  refine Keeps.trans ?_ (Part.sampleInstant_work _).toKeeps
  refine Keeps.trans ?_ (Part.zoneWork_keeps _)
  refine Keeps.trans ?_ (Part.checkDivergence_work _ _).toKeeps
  exact s.formLenses_keeps.trans (Part.stepShaper_keeps _ _)

theorem Part.serveFrame_keeps (s : Part) (f : CycleFrame) : Keeps s (s.serveFrame f) := by
  have served : Keeps s { s with gateway := s.gateway.serveFrame f s.now } :=
    { controllerMiss := fun _ => Nat.zero_le _ }
  exact served.trans ((Part.startLenses_keeps _).trans ((Part.sequencerServing_work _).toKeeps.trans
    ((Part.recorderServing_work _).toKeeps.trans ((Part.playerServing_work _).toKeeps.trans
      (Part.stepAndEmit_keeps _)))))

theorem Part.checkLink_work (s : Part) : StopWork s s.checkLink := by
  unfold Part.checkLink
  split
  · exact s.post_work _ _ _
  · exact StopWork.refl s

theorem Part.serveFill_keeps (s : Part) : Keeps s s.serveFill := by
  have served : Keeps s { s with gateway := s.gateway.serveFill s.now } :=
    { controllerMiss := fun _ => bump255_le _ }
  exact served.trans ((Part.startLenses_keeps _).trans ((Part.sequencerServing_work _).toKeeps.trans
    ((Part.checkLink_work _).toKeeps.trans ((Part.recorderServing_work _).toKeeps.trans
      ((Part.playerServing_work _).toKeeps.trans (Part.stepAndEmit_keeps _))))))

/-! ### A returned drive frame -/

theorem Part.followRuns_keeps (s : Part) (o : Outstanding) : Keeps s { s with shaper := s.followRuns o } where
  window := fun run _ law => law.turned run rfl rfl rfl Iff.rfl fun c => by
    simp only [Part.followRuns, Shaper.mapChans_get]
    split
    · exact ⟨rfl, rfl, fun h => .inl ⟨h, rfl⟩, .inl rfl⟩
    · exact .refl _ _ _

theorem Part.takeDriveFrame_keeps (s : Part) (o : Outstanding) (d : DriveReturn) : Keeps s (s.takeDriveFrame o d) := by
  have taken : Keeps s { s with gateway := s.gateway.takeDrive d } := { driveMiss := fun _ => Nat.zero_le _ }
  have followed (t : Part) : Keeps t (t.checkFollowing o) :=
    (t.followRuns_keeps o).trans (Part.postAll_work _ _).toKeeps
  exact taken.trans ((followed _).trans ((Part.sequencerReading_work _ _).toKeeps.trans
    ((Part.emitReturn_keeps _ _).trans (Part.postAll_work _ _).toKeeps)))

theorem Part.driveReturned_keeps (s : Part) (frame : List Byte) : Keeps s (s.driveReturned frame) := by
  unfold Part.driveReturned
  split
  · split
    · exact s.takeDriveFrame_keeps _ _
    · exact Keeps.refl s
  · exact Keeps.refl s

end Sys2Proof.Machine
end

section
set_option Elab.async false
/-! SETTLED. What each request can do: the laws that it keeps, request by request. -/

namespace Sys2Proof.Machine

/-! ### A request of the lane -/

theorem Part.reserve_work (s : Part) (kind tag : Byte) : Keeps s { s with lane := s.lane.reserve kind tag } := {}

theorem serveRequest_keeps {kind tag : Byte} {run : Nat → Part → Served}
    (served : ∀ (n : Nat) (t : Part), Keeps t (run n t).1) (s : Part) : Keeps s (serveRequest kind tag run s) := by
  unfold serveRequest
  split
  · exact { dropped := fun _ => bump255_le _ }
  · have judged := (s.reserve_work kind tag).trans (served s.lane.nextTicket _)
    dsimp only
    split
    · next t run => rw [run] at judged; exact judged
    · next t a run => rw [run] at judged; exact judged.trans (t.answer_work _ _ _).toKeeps

/-! ### Gateway, lens points, targets, sync, reads -/

theorem Part.requestGatewaySet_keeps (s : Part) (period missLimit : Nat) :
    Keeps s (s.requestGatewaySet period missLimit).1 := by
  unfold Part.requestGatewaySet
  split
  · exact Keeps.refl s
  split
  · exact {}
  · exact Keeps.refl s

theorem Part.requestAxisRead_part (s : Part) (target : Nat) : (s.requestAxisRead target).1 = s := by
  unfold Part.requestAxisRead
  split
  · rfl
  split <;> rfl

theorem Part.requestSourceLive_keeps (s : Part) (field : BitVec 16) : Keeps s (s.requestSourceLive field).1 := by
  unfold Part.requestSourceLive
  split
  · exact Keeps.refl s
  split
  · exact Keeps.refl s
  next m _ =>
  split
  · exact Keeps.refl s
  split
  · exact Keeps.refl s
  split
  · exact Keeps.refl s
  refine { window := fun run _ law => law.turned run rfl rfl rfl Iff.rfl fun c => ?_ }
  simp only [done, Shaper.goLive, Shaper.mapChans_get]
  split
  · next taken =>
    have parked := of_decide_eq_true (Bool.and_eq_true_iff.mp taken).2
    exact .intro rfl rfl rfl (.inl (by rw [parked]; exact Source.noConfusion))
  · exact .refl _ _ _

theorem Part.requestGeometrySet_keeps (s : Part) (g : GeometryFields) : Keeps s (s.requestGeometrySet g).1 := by
  unfold Part.requestGeometrySet
  split
  · exact Keeps.refl s
  split
  · exact {}
  · exact Keeps.refl s

theorem Part.requestTargetUpdate_keeps (s : Part) (f : TargetFields) : Keeps s (s.requestTargetUpdate f).1 := by
  unfold Part.requestTargetUpdate
  split
  · exact Keeps.lens _ fun _ => rfl
  · exact Keeps.refl s

theorem Part.requestSyncSet_keeps (s : Part) (weight preset value : Nat) :
    Keeps s (s.requestSyncSet weight preset value).1 := by
  unfold Part.requestSyncSet
  split
  · exact Keeps.refl s
  split
  · exact Keeps.refl s
  · exact {}

theorem Part.putLens_mode {s : Part} {l : LensIx} {c : LensChannel} (same : c.mode = s.lens.chans[l].mode)
    (k : LensIx) : (s.lens.setChan l c).chans[k].mode = s.lens.chans[k].mode := by
  simp only [LensMapper.setChan, Fin.getElem_fin, Vector.getElem_set]
  split
  · next eq => rw [same]; exact congrArg (fun i : LensIx => s.lens.chans[i].mode) (Fin.ext eq)
  · rfl

/-- A lens channel's record replaced by one with the same mode. -/
theorem Part.putLens_keeps {s : Part} {l : LensIx} {c : LensChannel} (same : c.mode = s.lens.chans[l].mode) :
    Keeps s (s.putLens l c) :=
  Keeps.lens _ (Part.putLens_mode same)

theorem Part.requestLensPoints_keeps (s : Part) (f : LensPointsFields) : Keeps s (s.requestLensPoints f).1 := by
  unfold Part.requestLensPoints
  split
  · exact Keeps.refl s
  split
  · exact Keeps.refl s
  split
  · exact Keeps.refl s
  split
  · exact Keeps.refl s
  · exact Part.putLens_keeps rfl

theorem Part.requestLensCommit_keeps (s : Part) (channel n : Nat) : Keeps s (s.requestLensCommit channel n).1 := by
  unfold Part.requestLensCommit
  split
  · exact Keeps.refl s
  split
  · exact Keeps.refl s
  dsimp only
  split
  · exact Keeps.refl s
  split
  · exact Keeps.refl s
  · exact Part.putLens_keeps rfl

theorem Part.requestLensTableRead_part (s : Part) (f : TableReadFields) : (s.requestLensTableRead f).1 = s := by
  unfold Part.requestLensTableRead
  split
  · rfl
  split
  · rfl
  split <;> rfl

/-! ### Axis records -/

theorem within_iff (x lo hi : Int) : within x lo hi = true ↔ lo ≤ x ∧ x ≤ hi := by
  rw [within, Bool.and_eq_true, decide_eq_true_iff, decide_eq_true_iff]

/-- The window and the decelerations of a record as section 3.1 has them. -/
theorem AxisFields.toRecord_sane {f : AxisFields} {c : Slot} {a : AxisRecord} (h : AxisFields.toRecord f c = some a) :
    a.pmin ≤ a.pmax ∧ 1 ≤ a.amax ∧ a.amax ≤ a.astop := by
  unfold AxisFields.toRecord at h
  split at h
  · split at h
    · next ok =>
      have range : AxisFields.inRange f c = true := by simp only [Bool.and_eq_true] at ok; exact ok.1.2
      simp only [AxisFields.inRange, Bool.and_eq_true, decide_eq_true_eq] at range
      cases h
      dsimp only
      omega
    · simp at h
  · simp at h

/-- One axis record replaced: what the window law asks of the slot, where in Run the record is as strict. -/
theorem Part.WindowLaw.putAxis {s : Part} (law : s.WindowLaw) {c : Slot} {a : AxisRecord}
    (sane : a.pmin ≤ a.pmax ∧ 1 ≤ a.amax ∧ a.amax ≤ a.astop)
    (present : a.present = s.shaper.axes[c].present)
    (amax : a.amax ≤ s.shaper.axes[c].amax)
    (reach : a.present = true → s.shaper.chans[c].InWindow (a.pmin * 65536, a.pmax * 65536) a.amax) :
    (s.putAxis c a).WindowLaw := by
  have same {d : Slot} (other : c ≠ d) : (s.putAxis c a).shaper.axes[d] = s.shaper.axes[d] := by
    simp only [Part.putAxis, Shaper.setAxis, Fin.getElem_fin]
    rw [Vector.getElem_set_ne]
    exact fun h => other (Fin.ext h)
  have at' : (s.putAxis c a).shaper.axes[c] = a := by
    simp [Part.putAxis, Shaper.setAxis]
  have presence (d : Slot) : (s.putAxis c a).shaper.axes[d].present = s.shaper.axes[d].present := by
    by_cases eq : c = d
    · subst eq; rw [at', present]
    · rw [same eq]
  constructor
  case sane =>
    intro d
    by_cases eq : c = d
    · subst eq; rw [at']; exact sane
    · rw [same eq]; exact law.sane d
  case setup => exact law.setup
  case motion => intro x h; exact law.motion x (presence _ ▸ h)
  case lens => intro l run h; exact law.lens l run (presence _ ▸ h)
  case inside =>
    intro d h moves driven
    by_cases eq : c = d
    · subst eq; rw [at'] at h ⊢; exact reach h
    · rw [same eq] at h ⊢; exact law.inside d h moves driven
  case ramp =>
    intro d h stop
    have was := law.ramp d (presence _ ▸ h) stop
    by_cases eq : c = d
    · subst eq; rw [at']; exact Nat.le_trans amax was
    · rw [same eq]; exact was

/-- In Setup, where every channel is on Track, the window law asks only for sane records. -/
theorem Part.WindowLaw.of_setup {s : Part} (setup : s.lane.mode = .setup) (off : s.seq.state = .safeOff)
    (sane : ∀ c : Slot, s.shaper.axes[c].pmin ≤ s.shaper.axes[c].pmax ∧
      1 ≤ s.shaper.axes[c].amax ∧ s.shaper.axes[c].amax ≤ s.shaper.axes[c].astop)
    (track : ∀ c : Slot, s.shaper.chans[c].source = .track) : s.WindowLaw where
  sane := sane
  setup := fun _ => track
  motion := fun a _ => ⟨fun _ => off, fun _ => track _⟩
  lens := fun _ run => absurd run (by rw [setup]; exact PartMode.noConfusion)
  inside := fun c _ moves => absurd (track c) moves
  ramp := fun c _ stop => absurd (track c) (by rw [stop]; exact Source.noConfusion)

theorem Part.InRun.off {s : Part} (run : s.InRun) (setup : s.lane.mode = .setup) : s.seq.state = .safeOff :=
  Decidable.byContradiction fun moving => absurd (run moving) (by rw [setup]; exact PartMode.noConfusion)

theorem Part.putAxis_sane {s : Part} (law : s.WindowLaw) {c : Slot} {a : AxisRecord}
    (sane : a.pmin ≤ a.pmax ∧ 1 ≤ a.amax ∧ a.amax ≤ a.astop) (d : Slot) :
    (s.putAxis c a).shaper.axes[d].pmin ≤ (s.putAxis c a).shaper.axes[d].pmax ∧
      1 ≤ (s.putAxis c a).shaper.axes[d].amax ∧
      (s.putAxis c a).shaper.axes[d].amax ≤ (s.putAxis c a).shaper.axes[d].astop := by
  simp only [Part.putAxis, Shaper.setAxis, Fin.getElem_fin, Vector.getElem_set]
  split
  · exact sane
  · exact law.sane d

theorem Part.axisSetChannel_keeps (s : Part) (c : Slot) (f : AxisFields) : Keeps s (s.axisSetChannel c f).1 := by
  unfold Part.axisSetChannel
  split
  · exact Keeps.refl s
  next a spelled =>
  have sane := AxisFields.toRecord_sane spelled
  split
  · next setup =>
    exact { window := fun run _ law =>
      .of_setup setup (run.off setup) (Part.putAxis_sane law sane) (law.setup setup) }
  · split
    · exact Keeps.refl s
    split
    · next strict reach =>
      refine { window := fun _ _ law => Part.WindowLaw.putAxis law sane ?_ ?_ ?_ } <;>
        simp only [AxisRecord.asStrict, Bool.not_eq_true', Bool.not_eq_false, Bool.and_eq_true, beq_iff_eq,
          decide_eq_true_eq] at strict
      · exact strict.1.1.1.1.1.1.1.1.1.1.1.1
      · omega
      · intro present
        simp only [AxisRecord.reachable, Channel.reaches, present, Bool.not_true, Bool.false_or,
          Bool.and_eq_true, within_iff, fineWindow] at reach
        exact ⟨reach.1.1, reach.1.2, reach.2.1, reach.2.2⟩
    · exact Keeps.refl s

theorem Part.requestAxisSet_keeps (s : Part) (target : Nat) (record : AxisSetRecord) :
    Keeps s (s.requestAxisSet target record).1 := by
  unfold Part.requestAxisSet Part.axisSetTiming
  split
  · split
    · split
      · exact Keeps.refl s
      · split
        · exact {}
        · exact Keeps.refl s
    · exact Keeps.refl s
  · split
    · exact s.axisSetChannel_keeps _ _
    · exact Keeps.refl s

end Sys2Proof.Machine
end

section
set_option Elab.async false
/-! SETTLED. The laws over the requests of the zone monitor, the stop sequencer, the lens mapper, the player, the
take array controller and the recorder. -/

namespace Sys2Proof.Machine

/-! ### Zones -/

theorem ZoneFields.toEntry_scale {f : ZoneFields} {z : ZoneEntry} (h : ZoneFields.toEntry f = some z) :
    256 ≤ z.scale ∧ z.scale ≤ 4095 := by
  unfold ZoneFields.toEntry at h
  split at h
  case h_2 => simp at h
  split at h
  case h_2 => simp at h
  next response scale ageing _ readScale _ =>
  split at h
  case isFalse => simp at h
  cases h
  dsimp only
  unfold ZoneFields.readScale at readScale
  split at readScale
  · split at readScale
    · next inRange => cases readScale; exact inRange
    · simp at readScale
  all_goals cases readScale; decide

theorem Part.putZone_recovery (s : Part) (i : ZoneIx) (z : ZoneEntry) :
    (s.putZone i z).zone.recovery = s.zone.recovery := by
  dsimp only [Part.putZone, Part.reevaluate, ZoneMonitor.remask]

theorem Part.putZone_keeps (s : Part) (i : ZoneIx) {z : ZoneEntry}
    (scale : s.ScaleInRange → 256 ≤ z.scale ∧ z.scale ≤ 4095) :
    Keeps s (s.putZone i z) where
  recovery := fun law off => (s.putZone_recovery i z).trans (law off)
  scale := fun law => by
    have scales : ∀ k : ZoneIx, 256 ≤ (s.putZone i z).zone.zones[k].scale ∧
        (s.putZone i z).zone.zones[k].scale ≤ 4095 := by
      intro k
      simp only [Part.putZone, Part.reevaluate, ZoneMonitor.remask, Fin.getElem_fin, Vector.getElem_set]
      split
      · exact scale law
      · exact law.zones k
    have range := ZoneMonitor.speedScale_range scales
    exact ⟨range.1, range.2, scales⟩

theorem Part.requestZoneSet_keeps (s : Part) (f : ZoneFields) : Keeps s (s.requestZoneSet f).1 := by
  unfold Part.requestZoneSet Part.judgeZone
  split
  case h_2 => exact Keeps.refl s
  next i z _ spelled =>
  have put := s.putZone_keeps i fun _ => ZoneFields.toEntry_scale spelled
  split
  · exact Keeps.refl s
  split
  · exact put
  split
  · exact Keeps.refl s
  split
  · exact Keeps.refl s
  · exact put

theorem Part.requestZoneClear_keeps (s : Part) (index : Nat) : Keeps s (s.requestZoneClear index).1 := by
  unfold Part.requestZoneClear
  split
  · exact Keeps.refl s
  split
  · exact Keeps.refl s
  · exact s.putZone_keeps _ fun _ => by decide

theorem Part.requestLiveZoneUpdate_keeps (s : Part) (index : Nat) (box : Box) :
    Keeps s (s.requestLiveZoneUpdate index box).1 := by
  unfold Part.requestLiveZoneUpdate
  split
  · exact Keeps.refl s
  split
  · exact Keeps.refl s
  next i _ =>
  dsimp only
  split
  · exact Keeps.refl s
  split
  · exact Keeps.refl s
  · exact s.putZone_keeps i fun law => law.zones i

theorem Part.requestZoneRead_part (s : Part) (index : Nat) : (s.requestZoneRead index).1 = s := by
  unfold Part.requestZoneRead
  split <;> rfl

/-! ### Mode -/

/-- A channel that takes up its state does so inside its axis window. -/
theorem Part.takeUpLive_inWindow {s : Part} (law : s.WindowLaw) (c : Slot) (ch : Channel) :
    (s.takeUpLive c ch).InWindow (s.shaper.axes[c].pmin * 65536, s.shaper.axes[c].pmax * 65536)
      s.shaper.axes[c].amax := by
  obtain ⟨low, middle, high⟩ := fineWindow_inside (wide := (s.shaper.axes[c].pmin, s.shaper.axes[c].pmax))
    (s.window_inside c (law.sane c).1)
  exact Channel.follow_inWindow ch _ _ middle low high

theorem lensOf_motion (a : Axis) : lensOf (Axis.slot a) = none := by
  have := a.isLt
  simp [lensOf, Axis.slot]

theorem lensOf_lens (l : LensIx) : lensOf (LensIx.slot l) = some l := by
  simp [lensOf, LensIx.slot]

theorem Part.runLens_mode (s : Part) (l : LensIx) (position : Int) :
    (s.runLens l position).mode = s.lens.chans[l].mode := by
  unfold Part.runLens
  split
  · exact LensChannel.setLastDemand_mode _ _
  · rfl

@[simp] theorem Part.enterRun_lens (s : Part) (l : LensIx) :
    s.enterRun.lens.chans[l].mode = s.lens.chans[l].mode := by
  simp [Part.enterRun, Part.runLens_mode]

theorem Part.enterRun_motion (s : Part) (a : Axis) :
    s.enterRun.shaper.chans[Axis.slot a] = s.shaper.chans[Axis.slot a] := by
  simp only [Part.enterRun, Shaper.mapChans_get, lensOf_motion]

theorem Part.enterRun_lensChan (s : Part) (l : LensIx) : s.enterRun.shaper.chans[LensIx.slot l] =
    if s.drivenLens l then s.takeUpLive (LensIx.slot l) s.shaper.chans[LensIx.slot l]
    else s.shaper.chans[LensIx.slot l] := by
  simp only [Part.enterRun, Shaper.mapChans_get, lensOf_lens]

theorem Part.enterRun_window {s : Part} (law : s.WindowLaw) (setup : s.lane.mode = .setup) :
    s.enterRun.WindowLaw := by
  have track := law.setup setup
  have live {l : LensIx} (h : s.drivenLens l = true) :
      s.enterRun.shaper.chans[LensIx.slot l].source = .live := by rw [s.enterRun_lensChan, if_pos h]; rfl
  have moved {c : Slot} (h : s.enterRun.shaper.chans[c].source ≠ .track) :
      ∃ l, c = LensIx.slot l ∧ s.drivenLens l = true := by
    rcases Slot.motion_or_lens c with ⟨a, rfl⟩ | ⟨l, rfl⟩
    · exact absurd (track _) (by rwa [s.enterRun_motion] at h)
    · refine ⟨l, rfl, ?_⟩
      refine Classical.byContradiction fun undriven => ?_
      rw [s.enterRun_lensChan, if_neg undriven] at h
      exact h (track _)
  constructor
  case sane => exact law.sane
  case setup => exact fun h => PartMode.noConfusion h
  case motion =>
    intro a present
    rw [s.enterRun_motion]
    exact law.motion a present
  case lens =>
    intro l _ present driven
    have h : s.drivenLens l = true :=
      Bool.and_eq_true_iff.mpr ⟨present, decide_eq_true (s.enterRun_lens l ▸ driven)⟩
    rw [live h]
    exact Source.noConfusion
  case inside =>
    intro c _ moves _
    obtain ⟨l, rfl, h⟩ := moved moves
    rw [s.enterRun_lensChan, if_pos h]
    exact Part.takeUpLive_inWindow law _ _
  case ramp =>
    intro c _ stop
    obtain ⟨l, rfl, h⟩ := moved (c := c) (by rw [stop]; exact Source.noConfusion)
    rw [live h] at stop
    exact Source.noConfusion stop

theorem Part.requestMode_keeps (s : Part) (want : Nat) : Keeps s (s.requestMode want).1 := by
  unfold Part.requestMode
  split
  · exact Keeps.refl s
  next m _ =>
  split
  · exact Keeps.refl s
  split
  · exact Keeps.refl s
  next other =>
  split
  · split
    · have setup : s.lane.mode = .setup := by
        cases mode : s.lane.mode
        · rfl
        · exact absurd mode.symm other
      exact { inRun := fun _ _ => rfl
              chain := fun law => ⟨law.closed_iff, law.line_closed, fun _ => rfl⟩
              window := fun _ _ law => Part.enterRun_window law setup }
    · exact Keeps.refl s
  · split
    · next off =>
      have tracked : Keeps s { s with
          lane := { s.lane with mode := .setup }
          shaper := s.shaper.mapChans fun _ ch => ch.withSource .track } :=
        { inRun := fun _ moving => absurd off moving
          chain := fun law => ⟨law.closed_iff, law.line_closed, fun moving => absurd off moving⟩
          window := fun _ _ law => .of_setup rfl off law.sane fun c => by
            rw [Shaper.mapChans_get]; rfl }
      exact tracked.trans (Part.returnAllCues_work _).toKeeps
    · exact Keeps.refl s

/-! ### Stop, Rearm and Continue -/

theorem Part.requestStop_keeps (s : Part) (category : Nat) : Keeps s (s.requestStop category).1 := by
  unfold Part.requestStop
  split
  · exact Keeps.refl s
  · exact (s.post_work _ _ _).toKeeps

theorem Part.handRecover_keeps {s : Part} (recover : Bool) (armed : s.seq.state ≠ .safeOff) :
    Keeps s (s.handRecover recover) := by
  unfold Part.handRecover
  split
  · exact Keeps.zone _ id fun _ off => absurd off armed
  · exact Keeps.refl s

theorem Part.takeUpParked_window {s : Part} (law : s.WindowLaw) (run : s.lane.mode = .run) (q : Sequencer)
    (armed : q.state ≠ .safeOff) : ({ s with shaper := s.takeUpParked, seq := q } : Part).WindowLaw := by
  have taken (a : Axis) (present : s.shaper.axes[Axis.slot a].present = true) :
      s.takeUpParked.chans[Axis.slot a].source = .parked ∧
        s.takeUpParked.chans[Axis.slot a].InWindow
          (s.shaper.axes[Axis.slot a].pmin * 65536, s.shaper.axes[Axis.slot a].pmax * 65536)
          s.shaper.axes[Axis.slot a].amax := by
    have moves : isMotion (Axis.slot a) = true := decide_eq_true a.isLt
    rw [Part.takeUpParked, Shaper.mapChans_get, if_pos (by rw [moves, present]; rfl)]
    exact ⟨rfl, Part.takeUpLive_inWindow law _ s.shaper.chans[Axis.slot a]⟩
  have same (l : LensIx) : s.takeUpParked.chans[LensIx.slot l] = s.shaper.chans[LensIx.slot l] := by
    have moves : isMotion (LensIx.slot l) = false := decide_eq_false (by simp [LensIx.slot])
    rw [Part.takeUpParked, Shaper.mapChans_get, if_neg (by rw [moves]; simp)]
  constructor
  case sane => exact law.sane
  case setup => exact fun h => absurd h (by rw [run]; exact PartMode.noConfusion)
  case motion =>
    intro a present
    exact ⟨fun track => absurd ((taken a present).1.symm.trans track) Source.noConfusion,
      fun off => absurd off armed⟩
  case lens =>
    intro l _ present driven
    dsimp only
    rw [same]
    exact law.lens l run present driven
  case inside =>
    intro c present moves driven
    rcases Slot.motion_or_lens c with ⟨a, rfl⟩ | ⟨l, rfl⟩
    · exact (taken a present).2
    · dsimp only at moves ⊢
      rw [same] at moves ⊢
      exact law.inside _ present moves driven
  case ramp =>
    intro c present stop
    rcases Slot.motion_or_lens c with ⟨a, rfl⟩ | ⟨l, rfl⟩
    · exact absurd ((taken a present).1.symm.trans stop) Source.noConfusion
    · dsimp only at stop ⊢
      rw [same] at stop ⊢
      exact law.ramp _ present stop

theorem Part.rearm_keeps {s : Part} (recover : Bool) (run : s.lane.mode = .run) (off : s.seq.state = .safeOff)
    (closed : s.seq.eStopOpen = false) : Keeps s (s.rearm recover) := by
  unfold Part.rearm
  refine Keeps.trans ?_ (Part.handRecover_keeps recover StopState.noConfusion)
  exact { phase := fun _ => Nat.zero_le _
          inRun := fun _ _ => run
          chain := fun _ => ⟨⟨fun _ => StopState.noConfusion, fun _ => rfl⟩, fun _ => closed, fun _ => run⟩
          recovery := fun _ armed => StopState.noConfusion armed
          play := fun law => .of_quiet (law.quiet (by rw [off]; exact StopState.noConfusion))
          window := fun _ _ law => Part.takeUpParked_window law run _ StopState.noConfusion }

theorem PartMode.run_of_ne {m : PartMode} (h : m ≠ .setup) : m = .run := by
  cases m
  · exact absurd rfl h
  · rfl

theorem Part.requestRearm_keeps (s : Part) (recover : Nat) : Keeps s (s.requestRearm recover).1 := by
  unfold Part.requestRearm
  split
  · exact Keeps.refl s
  next inRun =>
  split
  · exact Keeps.refl s
  split
  · exact Keeps.refl s
  next off =>
  split
  · next allowed =>
    simp only [Part.rearmAllowed, Bool.and_eq_true, Bool.not_eq_true'] at allowed
    exact Part.rearm_keeps _ (PartMode.run_of_ne inRun) (Classical.not_not.mp off) allowed.1.1.1.1.1
  · exact Keeps.refl s

theorem Part.requestContinue_keeps (s : Part) : Keeps s s.requestContinue.1 := by
  unfold Part.requestContinue
  split
  · exact Keeps.refl s
  split
  · exact Keeps.refl s
  next holding =>
  split
  · exact Keeps.refl s
  · exact (Part.continueRunning_work (by rw [Classical.not_not.mp holding]; exact StopState.noConfusion)).toKeeps

/-! ### Lens Mode Set -/

theorem LensIx.slot_inj {l k : LensIx} (eq : LensIx.slot l = LensIx.slot k) : l = k := by
  have := congrArg Fin.val eq
  simp only [LensIx.slot] at this
  exact Fin.ext (by omega)

/-- A lens channel's mode and channel set anew: what the window law asks of them. -/
theorem Part.WindowLaw.setLens {s : Part} (law : s.WindowLaw) {l : LensIx} {x : LensChannel} {ch : Channel}
    (setup : s.lane.mode = .setup → ch.source = .track)
    (driven : s.lane.mode = .run → s.shaper.axes[LensIx.slot l].present = true → x.mode ≠ .off →
      ch.source ≠ .track)
    (inside : s.shaper.axes[LensIx.slot l].present = true → ch.source ≠ .track → x.mode ≠ .off →
      ch.InWindow (s.shaper.axes[LensIx.slot l].pmin * 65536, s.shaper.axes[LensIx.slot l].pmax * 65536)
        s.shaper.axes[LensIx.slot l].amax)
    (ramp : s.shaper.axes[LensIx.slot l].present = true → ch.source = .stop →
      s.shaper.axes[LensIx.slot l].amax ≤ ch.rampDecel) :
    ({ s with shaper := s.shaper.setChan (LensIx.slot l) ch, lens := s.lens.setChan l x } : Part).WindowLaw := by
  have hit : (s.shaper.setChan (LensIx.slot l) ch).chans[LensIx.slot l] = ch := by simp [Shaper.setChan]
  have miss {c : Slot} (h : LensIx.slot l ≠ c) :
      (s.shaper.setChan (LensIx.slot l) ch).chans[c] = s.shaper.chans[c] := by
    simp only [Shaper.setChan, Fin.getElem_fin]
    exact Vector.getElem_set_ne _ _ fun eq => h (Fin.ext eq)
  have hitLens : (s.lens.setChan l x).chans[l] = x := by simp [LensMapper.setChan]
  have missLens {k : LensIx} (h : l ≠ k) : (s.lens.setChan l x).chans[k] = s.lens.chans[k] := by
    simp only [LensMapper.setChan, Fin.getElem_fin]
    exact Vector.getElem_set_ne _ _ fun eq => h (Fin.ext eq)
  have apart {k : LensIx} (h : LensIx.slot l ≠ LensIx.slot k) : l ≠ k := fun eq => h (by rw [eq])
  have injective {k : LensIx} (h : l ≠ k) : LensIx.slot l ≠ LensIx.slot k := fun eq => h (LensIx.slot_inj eq)
  constructor
  case sane => exact law.sane
  case setup =>
    intro h c
    by_cases eq : LensIx.slot l = c
    · subst eq; rw [hit]; exact setup h
    · rw [miss eq]; exact law.setup h c
  case motion =>
    intro a present
    have other : LensIx.slot l ≠ Axis.slot a := fun eq => by
      have := a.isLt
      simp only [LensIx.slot, Axis.slot, Fin.mk.injEq] at eq
      omega
    rw [miss other]
    exact law.motion a present
  case lens =>
    intro k run present off
    by_cases eq : l = k
    · subst eq
      rw [hitLens] at off
      rw [hit]
      exact driven run present off
    · rw [missLens eq] at off
      rw [miss (injective eq)]
      exact law.lens k run present off
  case inside =>
    intro c present moves off
    by_cases eq : LensIx.slot l = c
    · subst eq
      have on := off l rfl
      rw [hitLens] at on
      rw [hit] at moves ⊢
      exact inside present moves on
    · rw [miss eq] at moves ⊢
      refine law.inside c present moves fun k h => ?_
      subst h
      rw [← missLens (apart eq)]
      exact off k rfl
  case ramp =>
    intro c present stop
    by_cases eq : LensIx.slot l = c
    · subst eq
      rw [hit] at stop ⊢
      exact ramp present stop
    · rw [miss eq] at stop ⊢
      exact law.ramp c present stop

theorem Shaper.setChan_self (sh : Shaper) (c : Slot) : sh.setChan c sh.chans[c] = sh := by
  simp [Shaper.setChan]

/-- A lens channel's mode set anew, its channel left as it is. -/
theorem Part.WindowLaw.putLens {s : Part} (law : s.WindowLaw) {l : LensIx} {x : LensChannel}
    (on : s.lane.mode = .run → s.shaper.axes[LensIx.slot l].present = true → s.lens.chans[l].mode ≠ .off) :
    (s.putLens l x).WindowLaw := by
  have set := law.setLens (l := l) (x := x) (ch := s.shaper.chans[LensIx.slot l]) (law.setup · _)
    (fun run present _ => law.lens l run present (on run present))
    (fun present moves _ => law.inside _ present moves fun k eq => by
      have run : s.lane.mode = .run := PartMode.run_of_ne fun setup => moves (law.setup setup _)
      exact LensIx.slot_inj eq ▸ on run present)
    (law.ramp _)
  rwa [Shaper.setChan_self] at set

theorem Part.closeForMode_keeps (s : Part) (l : LensIx) : Keeps s (s.closeForMode l) := by
  unfold Part.closeForMode
  split
  · exact Keeps.refl s
  split
  · next busy => exact (Part.closeRecording_work (by rcases busy.1 with h | h <;> rw [h] <;> exact nofun) _).toKeeps
  · exact Keeps.refl s

theorem Part.changeMode_window {s : Part} {l : LensIx} (m : LensMode) (run : s.lane.mode = .run)
    (law : s.WindowLaw) : (s.changeMode l m).WindowLaw := by
  have notSetup {p : Prop} (setup : s.lane.mode = .setup) : p :=
    absurd setup (by rw [run]; exact PartMode.noConfusion)
  unfold Part.changeMode
  dsimp only
  split
  · refine law.setLens notSetup (fun _ _ _ => ?_) (fun _ _ _ => ?_) fun _ stop => ?_
    · exact Source.noConfusion
    · obtain ⟨low, middle, high⟩ := fineWindow_inside
        (wide := (s.shaper.axes[LensIx.slot l].pmin, s.shaper.axes[LensIx.slot l].pmax))
        (lensWindow_inside (law.sane (LensIx.slot l)).1 m s.lens.chans[l].coming)
      exact Channel.follow_inWindow s.shaper.chans[LensIx.slot l] _ _ middle low high
    · exact Source.noConfusion stop
  split
  · next off =>
    refine law.setLens notSetup (fun _ _ on => ?_) (fun _ moves _ => ?_) fun _ stop => ?_
    · exact absurd ((LensChannel.setLastDemand_mode _ _).trans off) on
    · exact absurd rfl moves
    · exact Source.noConfusion stop
  · next on _ => exact law.putLens fun _ _ => on

theorem Part.changeMode_keeps {s : Part} {l : LensIx} (m : LensMode) (run : s.lane.mode = .run) :
    Keeps s (s.changeMode l m) := by
  have laws (window : s.WindowLaw → (s.changeMode l m).WindowLaw) : Keeps s (s.changeMode l m) := by
    revert window
    unfold Part.changeMode
    dsimp only
    split
    · exact fun window => { window := fun _ _ => window }
    split <;> exact fun window => { window := fun _ _ => window }
  exact laws (Part.changeMode_window m run)

theorem Part.requestLensModeSet_keeps (s : Part) (channel mode : Nat) :
    Keeps s (s.requestLensModeSet channel mode).1 := by
  unfold Part.requestLensModeSet Part.judgeMode
  split
  · exact Keeps.refl s
  split
  · exact Keeps.refl s
  split
  · exact Keeps.refl s
  split
  · exact Keeps.refl s
  split
  · next driven =>
    split
    · exact Keeps.refl s
    · have run := of_decide_eq_true (Bool.and_eq_true_iff.mp driven).1
      exact (Part.changeMode_keeps _ run).trans (Part.closeForMode_keeps _ _)
  · next undriven =>
    refine Keeps.trans ?_ (Part.closeForMode_keeps _ _)
    exact { window := fun _ _ law => Part.WindowLaw.putLens law fun run present =>
      absurd (Bool.and_eq_true_iff.mpr ⟨decide_eq_true run, present⟩) undriven }

end Sys2Proof.Machine
end

section
set_option Elab.async false
/-! SETTLED. The laws over the requests of the player, the take array controller and the recorder. -/

namespace Sys2Proof.Machine

/-! ### Player -/

theorem Part.requestCueWrite_keeps (s : Part) (f : CueFields) : Keeps s (s.requestCueWrite f).1 := by
  unfold Part.requestCueWrite
  split
  · exact Keeps.refl s
  split
  · exact Keeps.refl s
  split
  · exact Keeps.refl s
  · exact {}

theorem Part.requestCueRead_part (s : Part) (index : Nat) : (s.requestCueRead index).1 = s := by
  unfold Part.requestCueRead
  split <;> rfl

theorem Part.requestCuePoll_keeps (s : Part) : Keeps s s.requestCuePoll.1 := by
  unfold Part.requestCuePoll
  split
  · next allowed => exact (s.fetchNow_work fun _ => Part.pollAllowed_running allowed).toKeeps
  · exact Keeps.refl s

theorem Part.requestPlayerStart_keeps (s : Part) (interval : Nat) : Keeps s (s.requestPlayerStart interval).1 := by
  unfold Part.requestPlayerStart
  split
  · exact Keeps.refl s
  split
  · exact Keeps.refl s
  split
  · exact Keeps.refl s
  next running =>
  split
  · exact Keeps.refl s
  · have set : Keeps s { s with player := { s.player with autoInterval := interval } } := {}
    refine set.trans (Part.fetchNow_work _ fun _ => ?_).toKeeps
    exact Classical.not_not.mp running

theorem Part.requestGo_keeps (s : Part) : Keeps s s.requestGo.1 := by
  unfold Part.requestGo
  split
  · split
    · next waiting => exact (s.enterPlaying_work (by rw [waiting.1]; rfl)).toKeeps
    · exact {}
  · exact Keeps.refl s

theorem Part.requestResume_keeps (s : Part) : Keeps s s.requestResume.1 := by
  unfold Part.requestResume
  split
  · exact Keeps.refl s
  split
  · exact Keeps.refl s
  split
  · exact Keeps.refl s
  next running =>
  rw [not_or, Classical.not_not] at running
  split
  · have set : Keeps s { s with player := { s.player with
        haltReason := .none, goLatch := false, resumed := true } } := {}
    refine set.trans (Part.enterApproaching_work _ fun _ => ?_).toKeeps
    exact running.1
  · exact Keeps.refl s

theorem Part.requestAbandon_keeps (s : Part) : Keeps s s.requestAbandon.1 := by
  unfold Part.requestAbandon
  split
  · exact (s.stopPlayer_work _).toKeeps
  · exact Keeps.refl s

theorem Part.requestPlayerStop_keeps (s : Part) : Keeps s s.requestPlayerStop.1 := by
  have stopped := (s.parkPlayedHere_work.trans (Part.stopPlayer_work _ .aborted)).toKeeps
  unfold Part.requestPlayerStop
  split
  case h_1 => exact Keeps.refl s
  case h_2 suspended => exact { play := fun law h => ⟨rfl, (law h).2⟩ }
  all_goals exact stopped

/-! ### Take array -/

/-- An array that differs in its slots and its erased queue, and in the serial counter. -/
theorem Keeps.array {s : Part} {t : TakeArray}
    (same : ∃ d e n c, t = { s.array with directory := d, erased := e, serial := n, clearing := c })
    (bays : s.BayLaw → Part.BayLaw { s with array := t }) : Keeps s { s with array := t } := by
  obtain ⟨_, _, _, _, rfl⟩ := same
  exact { bays }

/-- Requests of the lane that the controller is asked to look at, with a change of the slots. -/
theorem Keeps.placed {s : Part} {t : TakeArray}
    (same : ∃ d c l, t = { s.array with directory := d, clearing := c, laneJobs := l })
    (bays : s.BayLaw → Part.BayLaw { s with array := t }) : Keeps s (Part.kick { s with array := t }) := by
  obtain ⟨d, c, l, rfl⟩ := same
  have base : Keeps s { s with array := { s.array with directory := d, clearing := c, laneJobs := l } } False :=
    { bays, work := False.elim }
  exact (base.trans (Part.kick_work _).toKeeps.loosen).settle fun law => (base.loose law).kick

/-- A request is judged after the scan, and while no clear is under way. -/
theorem TakeArray.occupied_false {t : TakeArray} (free : ¬ t.occupied = true) :
    t.scanComplete = true ∧ t.clearing = false := by
  simpa [TakeArray.occupied, TakeArray.scanning] using free

theorem TakeArray.scanning_false {t : TakeArray} (free : ¬ t.scanning = true) : t.scanComplete = true := by
  simpa [TakeArray.scanning] using free

theorem Part.requestDirectoryRead_part (s : Part) (slot : Nat) : (s.requestDirectoryRead slot).1 = s := by
  unfold Part.requestDirectoryRead
  split
  · rfl
  split <;> rfl

theorem Part.eraseTake_keeps {s : Part} {i : DirIx} (complete : s.array.scanComplete = true)
    (clearing : s.array.clearing = false) (finished : s.array.directory[i].state.finished = true) :
    Keeps s (s.eraseTake i) := by
  unfold Part.eraseTake Part.addLaneJobs
  exact Keeps.placed ⟨_, _, _, rfl⟩ fun law => law.eraseTake complete clearing finished

theorem Part.requestTakeErase_keeps (s : Part) (slot : Nat) : Keeps s (s.requestTakeErase slot).1 := by
  unfold Part.requestTakeErase
  split
  · exact Keeps.refl s
  dsimp only
  split
  · exact Keeps.refl s
  next free =>
  obtain ⟨complete, clearing⟩ := TakeArray.occupied_false free
  split
  · exact Keeps.refl s
  next finished =>
  split
  · exact Keeps.refl s
  split
  · exact Keeps.refl s
  · exact Part.eraseTake_keeps complete clearing (by simpa using finished)

theorem Part.lockTake_keeps (s : Part) (i : DirIx) (ticket : Nat) : Keeps s (s.lockTake i ticket) := by
  have shunts := s.setSlot_shunts i { s.array.directory[i] with lockPending := true } rfl rfl
  refine (Keeps.array ⟨_, _, _, _, rfl⟩ shunts.bays).trans (Part.addLaneJobs_work _ _ ?_).toKeeps
  cases s.array.directory[i].bays <;> rfl

theorem Part.requestTakeLock_keeps (s : Part) (slot ticket : Nat) : Keeps s (s.requestTakeLock slot ticket).1 := by
  unfold Part.requestTakeLock
  split
  · exact Keeps.refl s
  dsimp only
  split
  · exact Keeps.refl s
  split
  · exact Keeps.refl s
  split
  · exact Keeps.refl s
  split
  · exact Keeps.refl s
  split
  · exact Keeps.refl s
  · exact s.lockTake_keeps _ _

theorem Part.requestFreeze_keeps (s : Part) : Keeps s s.requestFreeze.1 := {}

theorem Part.clearArray_keeps {s : Part} (complete : s.array.scanComplete = true)
    (free : s.array.slotBusy = false) (clearing : s.array.clearing = false) : Keeps s s.clearArray := by
  have bays (law : s.BayLaw) := law.clearArray complete free clearing
  unfold Part.clearArray
  dsimp only
  split
  · exact Keeps.array ⟨_, _, _, _, rfl⟩ fun law => (bays law).2
  · next p _ _ =>
    unfold Part.addLaneJobs
    exact Keeps.placed ⟨_, _, _, rfl⟩ fun law => (bays law).1 p

theorem Part.requestArrayClear_keeps (s : Part) : Keeps s s.requestArrayClear.1 := by
  unfold Part.requestArrayClear
  split
  · exact Keeps.refl s
  split
  · exact Keeps.refl s
  next scanned =>
  split
  · exact Keeps.refl s
  split
  · exact Keeps.refl s
  next free =>
    simp only [Bool.or_eq_true, not_or, Bool.not_eq_true] at free
    dsimp only [started]
    exact Part.clearArray_keeps (TakeArray.scanning_false scanned) free.1.1 free.2

theorem Part.requestTakeRead_keeps (s : Part) (slot page ticket : Nat) :
    Keeps s (s.requestTakeRead slot page ticket).1 := by
  unfold Part.requestTakeRead
  split
  · exact Keeps.refl s
  dsimp only
  split
  · exact Keeps.refl s
  split
  · exact Keeps.refl s
  split
  · exact Keeps.refl s
  split
  · exact Keeps.refl s
  split
  · exact Keeps.refl s
  · exact (s.addLaneJobs_work _ rfl).toKeeps

theorem TakeArray.openSlot_eq (t : TakeArray) (i : DirIx) (state : SlotState) (mask : Mask) (divisor : Nat)
    (modes : Vector LensMode 4) : ∃ d n, t.openSlot i state mask divisor modes = { t with directory := d, serial := n } :=
  ⟨_, _, rfl⟩

theorem Part.openImport_keeps {s : Part} {i : DirIx} (complete : s.array.scanComplete = true)
    (empty : s.array.directory[i].state = .empty) (mask : Mask) (divisor : Nat) (modes : Vector LensMode 4) :
    Keeps s { s with array := s.array.openSlot i .importing mask divisor modes } := by
  obtain ⟨d, n, eq⟩ := s.array.openSlot_eq i .importing mask divisor modes
  exact Keeps.array ⟨d, _, n, _, eq⟩ fun law => law.openImport complete empty mask divisor modes

theorem Part.requestTakeImport_keeps (s : Part) (f : ImportFields) : Keeps s (s.requestTakeImport f).1 := by
  unfold Part.requestTakeImport
  split
  · split
    · exact Keeps.refl s
    split
    · exact Keeps.refl s
    next unoccupied =>
    split
    · exact Keeps.refl s
    next empty =>
    split
    · exact Keeps.refl s
    · exact Part.openImport_keeps (TakeArray.occupied_false unoccupied).1 (Classical.not_not.mp empty) _ _ _
  · exact Keeps.refl s

theorem Part.acceptWrite_keeps (s : Part) (i : DirIx) (page : List Byte) (es : List Entry) (ticket : Nat)
    {header : List Job} (plain : header.filter Job.isRetire = []) :
    Keeps s (s.acceptWrite i page es ticket header) := by
  have shunts := s.setSlot_shunts i (s.array.directory[i].acceptPage es) rfl rfl
  refine (Keeps.array ⟨_, _, _, _, rfl⟩ shunts.bays).trans (Part.addLaneJobs_work _ _ ?_).toKeeps
  rw [List.filter_append, plain]
  rfl

theorem Part.placePage_keeps {s : Part} {i : DirIx} (complete : s.array.scanComplete = true)
    (importing : s.array.directory[i].state = .importing) (page : List Byte) (es : List Entry) (ticket : Nat) :
    Keeps s (s.placePage i page es ticket).1 := by
  unfold Part.placePage
  dsimp only
  split
  · split
    · exact Keeps.refl s
    · next claimed =>
      exact (Keeps.array ⟨_, _, _, _, (TakeArray.claim_eq claimed).2⟩ fun law =>
        law.claimImport complete importing claimed).trans (Part.acceptWrite_keeps _ _ _ _ _ rfl)
  · exact s.acceptWrite_keeps _ _ _ _ rfl

theorem Part.requestPageWrite_keeps (s : Part) (slot : Nat) (page : List Byte) (ticket : Nat) :
    Keeps s (s.requestPageWrite slot page ticket).1 := by
  unfold Part.requestPageWrite
  split
  · exact Keeps.refl s
  dsimp only
  split
  · exact Keeps.refl s
  split
  · exact Keeps.refl s
  next unoccupied =>
  split
  · exact Keeps.refl s
  next importing =>
  split
  · exact Keeps.refl s
  · exact Part.placePage_keeps (TakeArray.occupied_false unoccupied).1 (Classical.not_not.mp importing) _ _ _

theorem Part.requestImportClose_keeps (s : Part) (slot : Nat) : Keeps s (s.requestImportClose slot).1 := by
  unfold Part.requestImportClose
  split
  · exact Keeps.refl s
  dsimp only
  split
  · exact Keeps.refl s
  next unoccupied =>
  split
  · exact Keeps.refl s
  next importing =>
  split
  · exact Keeps.refl s
  split
  · exact Keeps.refl s
  · exact Keeps.array ⟨_, _, _, _, rfl⟩ fun law =>
      law.closeImport (TakeArray.occupied_false unoccupied).1 (Classical.not_not.mp importing) _ rfl rfl

/-! ### Recorder -/

theorem Part.openRecording_keeps {s : Part} (running : s.seq.state = .running) (i : DirIx) (trigger : RecorderTrigger)
    {t : TakeArray} (same : ∃ d e n, t = { s.array with directory := d, erased := e, serial := n })
    (bays : s.BayLaw → (s.openRecording i trigger t).BayLaw) : Keeps s (s.openRecording i trigger t) := by
  obtain ⟨_, _, _, rfl⟩ := same
  exact { bays, missed := fun _ => Nat.zero_le _, play := fun _ => .of_running running }

theorem Part.judgeRecord_keeps {s : Part} (complete : s.array.scanComplete = true) (i : DirIx) (m : Mask) (divisor : Nat)
    (trigger : RecorderTrigger) : Keeps s (s.judgeRecord i m divisor trigger).1 := by
  unfold Part.judgeRecord
  split
  · exact Keeps.refl s
  next running =>
  split
  · exact Keeps.refl s
  split
  · exact Keeps.refl s
  next empty =>
  split
  · exact Keeps.refl s
  dsimp only
  split
  · exact Keeps.refl s
  · next claimed =>
    exact Part.openRecording_keeps (Classical.not_not.mp running) i trigger
      ⟨_, _, _, (TakeArray.claim_eq claimed).2⟩ fun law => law.openRecording complete (Classical.not_not.mp empty) trigger claimed

theorem Part.requestRecordStart_keeps (s : Part) (f : RecordStartFields) : Keeps s (s.requestRecordStart f).1 := by
  unfold Part.requestRecordStart
  split
  · exact Keeps.refl s
  next scanned =>
  split
  · exact Keeps.refl s
  split
  · split
    · exact Keeps.refl s
    split
    · exact Keeps.refl s
    · exact Part.judgeRecord_keeps (TakeArray.scanning_false scanned) _ _ _ _
  · exact Keeps.refl s

theorem Part.requestRecordStop_keeps (s : Part) : Keeps s s.requestRecordStop.1 := by
  unfold Part.requestRecordStop
  split
  · exact Keeps.refl s
  · next armed => exact (Part.closeArmed_work armed).toKeeps
  · next busy => exact (Part.closeRecording_work (by rw [busy]; exact nofun) _).toKeeps
  · next busy => exact (Part.closeRecording_work (by rw [busy]; exact nofun) _).toKeeps
  · exact Keeps.refl s

/-! ### Resets and the records of a lane -/

theorem Part.reset_sane : ∀ c : Slot, Part.reset.shaper.axes[c].pmin ≤ Part.reset.shaper.axes[c].pmax ∧
    1 ≤ Part.reset.shaper.axes[c].amax ∧ Part.reset.shaper.axes[c].amax ≤ Part.reset.shaper.axes[c].astop := by
  decide

theorem Part.reset_track : ∀ c : Slot, Part.reset.shaper.chans[c].source = .track := by decide

theorem Part.reset_scale : Part.reset.ScaleInRange := ⟨by decide, by decide, by decide⟩

theorem Part.resetAll_window (s : Part) (eStopOpen guardOpen : Bool) : (s.resetAll eStopOpen guardOpen).WindowLaw :=
  .of_setup rfl rfl Part.reset_sane Part.reset_track

theorem Part.reset_bayLaw : Part.reset.BayLaw where
  once := fun h => Bool.noConfusion h
  oneErase := fun _ _ => rfl
  empty := by decide
  scanning := fun sc h => by
    cases h
    exact ⟨rfl, rfl, rfl, fun _ none => absurd none List.not_mem_nil, List.nodup_nil,
      fun _ none => absurd none List.not_mem_nil⟩
  retire := fun _ _ none => absurd none List.not_mem_nil
  clear := fun _ _ none => absurd none List.not_mem_nil
  recording := fun h => absurd rfl h
  reserved := fun _ h => nomatch h

theorem Part.resetAll_bayLaw (s : Part) (eStopOpen guardOpen : Bool) : (s.resetAll eStopOpen guardOpen).BayLaw :=
  have law := Part.reset_bayLaw
  ⟨law.1, law.2, law.3, law.4, law.5, law.6, law.7, law.8⟩

theorem Part.resetAll_keeps (s : Part) (eStopOpen guardOpen : Bool) : Keeps s (s.resetAll eStopOpen guardOpen) where
  memory := fun h => TakeArray.wf_afterCut h s.freeCount
  late := fun _ => Nat.zero_le _
  bad := fun _ => Nat.zero_le _
  controllerMiss := fun _ => Nat.zero_le _
  driveMiss := fun _ => Nat.zero_le _
  dropped := fun _ => Nat.zero_le _
  phase := fun _ => Nat.zero_le _
  missed := fun _ => Nat.zero_le _
  autoPoll := fun _ => Nat.zero_le _
  scale := fun _ => ⟨Part.reset_scale.1, Part.reset_scale.2, Part.reset_scale.3⟩
  inRun := fun _ moving => absurd rfl moving
  chain := fun _ => ⟨⟨fun h => Bool.noConfusion h, fun h => absurd rfl h⟩, fun h => absurd rfl h, fun h => absurd rfl h⟩
  recovery := fun _ _ => rfl
  play := fun _ => .of_quiet ⟨rfl, rfl⟩
  window := fun _ _ _ => s.resetAll_window _ _
  bays := fun _ => Part.resetAll_bayLaw s _ _
  loose := fun _ => .of_idle rfl
  work := fun _ _ => .of_scan rfl nofun

theorem serveRequest_refuse_keeps (kind tag : Byte) (code : ResultCode) (s : Part) :
    Keeps s (serveRequest kind tag (fun _ p => refuse p code) s) :=
  serveRequest_keeps (fun _ t => Keeps.refl t) s

theorem Part.serveRestart_keeps (s : Part) (tag : Byte) : Keeps s (s.serveRestart tag) := by
  unfold Part.serveRestart
  split
  · exact s.resetAll_keeps _ _
  · exact serveRequest_refuse_keeps _ _ _ _

theorem Keeps.of_eq {s t : Part} (h : t = s) : Keeps s t := h ▸ Keeps.refl s

/-- Whatever a record of a lane asks for, its owner keeps the laws. -/
theorem Part.serveRecord_keeps (s : Part) (i : Instr) : Keeps s (s.serveRecord i) := by
  cases i with
  | malformedRecord kind tag => exact serveRequest_refuse_keeps _ _ _ s
  | unknownRecord kind tag => exact serveRequest_refuse_keeps _ _ _ s
  | gatewaySet tag period limit => exact serveRequest_keeps (fun _ t => t.requestGatewaySet_keeps _ _) s
  | mode tag want => exact serveRequest_keeps (fun _ t => t.requestMode_keeps _) s
  | restart tag => exact s.serveRestart_keeps tag
  | axisSet tag target record => exact serveRequest_keeps (fun _ t => t.requestAxisSet_keeps _ _) s
  | axisRead tag target => exact serveRequest_keeps (fun _ t => .of_eq (t.requestAxisRead_part _)) s
  | sourceLive tag mask => exact serveRequest_keeps (fun _ t => t.requestSourceLive_keeps _) s
  | geometrySet tag body => exact serveRequest_keeps (fun _ t => t.requestGeometrySet_keeps _) s
  | zoneSet tag body => exact serveRequest_keeps (fun _ t => t.requestZoneSet_keeps _) s
  | zoneClear tag index => exact serveRequest_keeps (fun _ t => t.requestZoneClear_keeps _) s
  | liveZoneUpdate tag index box => exact serveRequest_keeps (fun _ t => t.requestLiveZoneUpdate_keeps _ _) s
  | zoneRead tag index => exact serveRequest_keeps (fun _ t => .of_eq (t.requestZoneRead_part _)) s
  | stop tag category => exact serveRequest_keeps (fun _ t => t.requestStop_keeps _) s
  | rearm tag recover => exact serveRequest_keeps (fun _ t => t.requestRearm_keeps _) s
  | continueStop tag => exact serveRequest_keeps (fun _ t => t.requestContinue_keeps) s
  | lensModeSet tag channel mode => exact serveRequest_keeps (fun _ t => t.requestLensModeSet_keeps _ _) s
  | lensPoints tag body => exact serveRequest_keeps (fun _ t => t.requestLensPoints_keeps _) s
  | lensCommit tag channel count => exact serveRequest_keeps (fun _ t => t.requestLensCommit_keeps _ _) s
  | lensTableRead tag body => exact serveRequest_keeps (fun _ t => .of_eq (t.requestLensTableRead_part _)) s
  | targetUpdate tag body => exact serveRequest_keeps (fun _ t => t.requestTargetUpdate_keeps _) s
  | syncSet tag weight preset value => exact serveRequest_keeps (fun _ t => t.requestSyncSet_keeps _ _ _) s
  | recordStart tag body => exact serveRequest_keeps (fun _ t => t.requestRecordStart_keeps _) s
  | recordStop tag => exact serveRequest_keeps (fun _ t => t.requestRecordStop_keeps) s
  | takeErase tag slot => exact serveRequest_keeps (fun _ t => t.requestTakeErase_keeps _) s
  | takeLock tag slot => exact serveRequest_keeps (fun n t => t.requestTakeLock_keeps _ n) s
  | protectionFreeze tag => exact serveRequest_keeps (fun _ t => t.requestFreeze_keeps) s
  | arrayClear tag => exact serveRequest_keeps (fun _ t => t.requestArrayClear_keeps) s
  | directoryRead tag slot => exact serveRequest_keeps (fun _ t => .of_eq (t.requestDirectoryRead_part _)) s
  | takeRead tag slot page => exact serveRequest_keeps (fun n t => t.requestTakeRead_keeps _ _ n) s
  | takeImport tag body => exact serveRequest_keeps (fun _ t => t.requestTakeImport_keeps _) s
  | pageWrite tag slot page => exact serveRequest_keeps (fun n t => t.requestPageWrite_keeps _ _ n) s
  | importClose tag slot => exact serveRequest_keeps (fun _ t => t.requestImportClose_keeps _) s
  | cueWrite tag body => exact serveRequest_keeps (fun _ t => t.requestCueWrite_keeps _) s
  | cueRead tag index => exact serveRequest_keeps (fun _ t => .of_eq (t.requestCueRead_part _)) s
  | cuePoll tag => exact serveRequest_keeps (fun _ t => t.requestCuePoll_keeps) s
  | playerStart tag interval => exact serveRequest_keeps (fun _ t => t.requestPlayerStart_keeps _) s
  | playerStop tag => exact serveRequest_keeps (fun _ t => t.requestPlayerStop_keeps) s
  | go tag => exact serveRequest_keeps (fun _ t => t.requestGo_keeps) s
  | resume tag => exact serveRequest_keeps (fun _ t => t.requestResume_keeps) s
  | abandon tag => exact serveRequest_keeps (fun _ t => t.requestAbandon_keeps) s
  | _ => exact Keeps.refl s

end Sys2Proof.Machine
end

section
set_option Elab.async false
/-! SETTLED. Every command keeps the laws; what of them a reset meets; and what an event that is not due does. -/

namespace Sys2Proof.Machine

/-! ### The camera sync line -/

/-- The time base and the sync unit are in no law. -/
theorem Keeps.sync (s : Part) (now : Nat) (u : SyncUnit) : Keeps s { s with now := now, sync := u } := {}

theorem Part.expirePhasePoint_keeps (s : Part) : Keeps s s.expirePhasePoint :=
  (Keeps.sync s s.now _).trans s.expirePhasePoint_work.toKeeps

theorem Part.schedulePhasePoint_keeps (s : Part) (edge : Nat) : Keeps s (s.schedulePhasePoint edge) := by
  have pending : Keeps s s.expirePending := by
    unfold Part.expirePending
    split
    · exact s.expirePhasePoint_keeps
    · exact Keeps.refl s
  unfold Part.schedulePhasePoint
  dsimp only
  refine pending.trans ?_
  split
  · exact (Keeps.sync _ _ _).trans (Part.expirePhasePoint_keeps _)
  · exact Keeps.sync _ _ _

/-- The sync unit set anew, and a phase point scheduled. -/
theorem Part.scheduled_keeps (s : Part) (u : SyncUnit) (edge : Nat) :
    Keeps s (Part.schedulePhasePoint { s with sync := u } edge) :=
  (Keeps.sync s s.now u).trans (Part.schedulePhasePoint_keeps _ edge)

theorem Part.edgeAcquiring_keeps (s : Part) (t interval : Nat) : Keeps s (s.edgeAcquiring t interval) := by
  unfold Part.edgeAcquiring
  split
  · exact Keeps.sync _ _ _
  dsimp only
  split
  · exact s.scheduled_keeps _ _
  · exact Keeps.sync _ _ _

theorem Part.edgeLocked_keeps (s : Part) (t interval : Nat) : Keeps s (s.edgeLocked t interval) := by
  unfold Part.edgeLocked
  split
  · exact Keeps.refl s
  split
  · exact s.scheduled_keeps _ _
  · exact Keeps.sync _ _ _

theorem Part.edgeFreewheel_keeps (s : Part) (t interval : Nat) : Keeps s (s.edgeFreewheel t interval) := by
  unfold Part.edgeFreewheel
  split
  · exact Keeps.refl s
  · exact Keeps.sync _ _ _

theorem Part.candidate_keeps (s : Part) (t : Nat) : Keeps s (s.candidate t) := by
  unfold Part.candidate
  split
  · exact Keeps.sync _ _ _
  split
  · exact Keeps.sync _ _ _
  · exact Keeps.sync _ _ _
  · exact s.edgeAcquiring_keeps _ _
  · exact s.edgeLocked_keeps _ _
  · exact s.edgeFreewheel_keeps _ _

theorem Part.advanceTo_keeps (s : Part) (t : Nat) : Keeps s (s.advanceTo t) := {}

theorem Part.lossReached_keeps (s : Part) : Keeps s s.lossReached := by
  unfold Part.lossReached
  split
  · exact (s.advanceTo_keeps _).trans (Part.scheduled_keeps _ _ _)
  · exact Keeps.refl s

theorem Part.synthesisReached_keeps (s : Part) : Keeps s s.synthesisReached := by
  unfold Part.synthesisReached
  split
  · next edge _ _ =>
    refine (s.advanceTo_keeps edge).trans ?_
    unfold Part.synthesizeEdge
    dsimp only
    split
    · exact Keeps.sync _ _ _
    · exact Part.scheduled_keeps _ _ _
  · exact Keeps.refl s

theorem Part.phasePointReached_keeps (s : Part) : Keeps s s.phasePointReached := by
  unfold Part.phasePointReached
  split
  · exact Keeps.refl s
  · exact (s.advanceTo_keeps _).trans (Part.expirePhasePoint_keeps _)

/-! ### The take array -/

theorem Part.finishRead_work (s : Part) (j : Job) (withdrawn : Bool) : ArrayWork s (s.finishRead j withdrawn) False := by
  unfold Part.finishRead
  split
  · split
    · exact ArrayWork.refl s
    · exact s.playerReadDone_work _ _
  · split
    · exact s.answer_work _ _ _
    · exact s.answer_work _ _ _
  · exact ArrayWork.refl s

theorem Part.finishRead_reads (s : Part) (j : Job) (withdrawn : Bool) : s.Reads (s.finishRead j withdrawn) := by
  unfold Part.finishRead
  split
  · split
    · exact .refl s
    · exact s.playerReadDone_reads _ _
  · split <;> exact {}
  · exact .refl s

theorem Part.clearOperation_keeps {s : Part} {j : Job} {w : Bool} (job : s.array.operation = some (.job j w)) :
    Keeps s s.clearOperation False where
  bays := (Part.clearOperation_shunts job).bays
  loose := fun _ => .of_idle rfl
  work := False.elim

theorem Part.readCompleted_keeps (s : Part) : Keeps s s.readCompleted := by
  unfold Part.readCompleted
  split
  · next j w job =>
    split
    · exact ((Part.clearOperation_keeps job).trans (Part.finishRead_work _ _ _).toKeeps).chosen
        ((Part.finishRead_reads _ _ _).array.none_iff.2 rfl)
    · exact Keeps.refl s
  · exact Keeps.refl s
  · exact Keeps.refl s

/-- A read or a program in progress goes on while a stall ends. -/
theorem Part.endStall_operation {s : Part} {j : Job} {w : Bool} (job : s.array.operation = some (.job j w)) :
    s.endStall.array.operation = some (.job j w) := by
  unfold Part.endStall
  split
  · split
    · dsimp only
      split
      · exact job
      · unfold Part.makeTurn Part.addRecorderJobs Part.kick
        dsimp only
        rw [job]
    · exact job
  · exact job

theorem Part.finishClosing_operation (s : Part) : s.finishClosing.array.operation = s.array.operation := by
  obtain ⟨_, _, eq, -⟩ := s.finishClosing_eq
  rw [eq]

/-- A program that has completed, with what it leaves of the slots, the lane's list and the dirty queue. -/
theorem Keeps.completed {s : Part} {t : TakeArray}
    (same : ∃ d l e c, t = { s.array with directory := d, laneJobs := l, dirty := e, clearing := c })
    (bays : s.BayLaw → (Part.clearOperation { s with array := t }).BayLaw) :
    Keeps s (Part.clearOperation { s with array := t }) False := by
  obtain ⟨_, _, _, _, rfl⟩ := same
  exact { bays, loose := fun _ => .of_idle rfl, work := False.elim }

theorem TakeArray.clearRetired_same (t : TakeArray) (i : DirIx) :
    ∃ d l e c, t.clearRetired i = { t with directory := d, laneJobs := l, dirty := e, clearing := c } := by
  unfold TakeArray.clearRetired
  split
  · exact ⟨_, _, _, _, rfl⟩
  · exact ⟨_, _, _, _, rfl⟩

theorem Part.finishProgram_keeps {s : Part} {j : Job} {w : Bool} (job : s.array.operation = some (.job j w)) :
    Keeps s (s.finishProgram j).clearOperation False := by
  have slot (i : DirIx) (d : DirectorySlot) (state : d.state = s.array.directory[i].state)
      (bays : d.bays = s.array.directory[i].bays) : Keeps s { s with array := s.array.setSlot i d } False :=
    (Keeps.array ⟨_, _, _, _, rfl⟩ (s.setSlot_shunts i d state bays).bays).loosen
  cases j with
  | recorderHeader bay h =>
    exact s.finishClosing_work.toKeeps.loosen.trans
      (Part.clearOperation_keeps (s.finishClosing_operation.trans job))
  | recorderData i page buffer entries =>
    have closed := (s.recorderPageDone_work i buffer).trans ((Part.endStall_work _).trans (Part.finishClosing_work _))
    exact closed.toKeeps.loosen.trans (Part.clearOperation_keeps
      ((Part.finishClosing_operation _).trans (Part.endStall_operation job)))
  | writeHeader bay h => exact Part.clearOperation_keeps job
  | writeData ticket i page entries =>
    exact (slot i _ (by rfl) (by rfl)).trans ((Part.answer_work _ _ _ _).toKeeps.trans (Part.clearOperation_keeps job))
  | lock ticket i bay =>
    exact (slot i _ (by rfl) (by rfl)).trans ((Part.answer_work _ _ _ _).toKeeps.trans (Part.clearOperation_keeps job))
  | retire i bay => exact Keeps.completed ⟨_, _, _, _, s.array.retired_same i bay⟩ fun law => law.retireDone job
  | clearRetire i bay => exact Keeps.completed (s.array.clearRetired_same i) fun law => law.clearRetireDone job
  | playerRead i page => exact Part.clearOperation_keeps job
  | takeRead ticket i page => exact Part.clearOperation_keeps job

theorem Part.programCompleted_keeps (s : Part) : Keeps s s.programCompleted := by
  unfold Part.programCompleted
  split
  · next j _ job =>
    split
    · exact Keeps.refl s
    · have programmed : Keeps s { s with array := { s.array with memory := s.array.programmed j } } False :=
        { memory := fun h => TakeArray.wf_programmed h j, work := False.elim }
      exact (programmed.trans (Part.finishProgram_keeps job)).chosen rfl
  · exact Keeps.refl s
  · exact Keeps.refl s

/-- A stall that ends hands its requests to the controller. -/
theorem Part.endStall_settled {s : Part} (idle : s.array.operation = none) :
    s.endStall.array.operation = none ∨ s.endStall.WorkLaw := by
  unfold Part.endStall
  split
  · split
    · dsimp only
      split
      · exact .inl idle
      · exact .inr (Part.LooseLaw.kick (.of_idle idle))
    · exact .inl idle
  · exact .inl idle

theorem Part.reserveBay_operation (s : Part) (i : DirIx) : (s.reserveBay i).array.operation = s.array.operation := by
  unfold Part.reserveBay
  split
  · rfl
  · next claimed =>
    dsimp only
    rw [(TakeArray.claim_eq claimed).2]

theorem Part.bayForStall_settled {s : Part} (idle : s.array.operation = none) :
    s.bayForStall.array.operation = none ∨ s.bayForStall.WorkLaw := by
  unfold Part.bayForStall
  split
  · split
    · dsimp only
      split
      · exact Part.endStall_settled ((s.reserveBay_operation _).trans idle)
      · exact .inl idle
    · exact .inl idle
  · exact .inl idle

theorem Part.eraseCompleted_keeps (s : Part) : Keeps s s.eraseCompleted := by
  unfold Part.eraseCompleted
  split
  · next bay erase =>
    have erased : Keeps s { s with array := s.array.bayErased bay } False :=
      { memory := fun h => ArrayMemory.wf_eraseBay h bay, bays := fun law => law.bayErased erase
        loose := fun _ => .of_idle rfl, work := False.elim }
    refine (erased.trans ((Part.bayForStall_work _).toKeeps.loosen.trans (Part.choose_work _).toKeeps.loosen)).settle
      fun _ => ?_
    rcases Part.bayForStall_settled (s := { s with array := s.array.bayErased bay }) rfl with idle | law
    · exact Part.choose_workLaw idle
    · exact law.choose
  · exact Keeps.refl s
  · exact Keeps.refl s

theorem TakeArray.ScanWork.scanNext {t u : TakeArray} (same : t.ScanWork u) (sc : Scan) (rest : List DirIx) :
    t.ScanWork (u.scanNext sc rest) := by
  cases rest <;> exact { same with }

theorem TakeArray.scanHeadersDone_same (t : TakeArray) (sc : Scan) : t.ScanWork (t.scanHeadersDone sc) := by
  unfold TakeArray.scanHeadersDone
  exact TakeArray.ScanWork.scanNext (u := { t with directory := sc.directory }) {} _ _

theorem TakeArray.scanRead_same (t : TakeArray) (sc : Scan) : t.ScanWork (t.scanRead sc) := by
  have slot (i : DirIx) (d : DirectorySlot) (rest : List DirIx) : t.ScanWork ((t.setSlot i d).scanNext sc rest) :=
    TakeArray.ScanWork.scanNext (u := t.setSlot i d) {} _ _
  unfold TakeArray.scanRead
  split
  · split
    · dsimp only
      split
      · exact t.scanHeadersDone_same _
      · exact {}
    · exact t.scanHeadersDone_same _
  · dsimp only
    split
    · exact slot _ _ _
    · split
      · exact slot _ _ _
      · exact {}

theorem Part.scanReadCompleted_keeps (s : Part) : Keeps s s.scanReadCompleted := by
  unfold Part.scanReadCompleted
  split
  · exact Keeps.refl s
  · next sc scan =>
    have same := s.array.scanRead_same sc
    have idle (law : s.LooseLaw) : (s.array.scanRead sc).operation = none :=
      same.operation.trans (law.scanning (by rw [scan]; exact nofun))
    have read : Keeps s { s with array := s.array.scanRead sc } False :=
      { memory := fun h => (congrArg ArrayMemory.wf same.memory).trans h, bays := fun law => law.scanRead scan
        loose := fun law => .of_idle (idle law), work := False.elim }
    exact (read.trans (Part.choose_work _).toKeeps.loosen).settle fun law => Part.choose_workLaw (idle law)

/-! ### Cycle frames -/

theorem Part.readLane_keeps (records : List LaneRecord) (s : Part) : Keeps s (Part.readLane records s) := by
  induction records generalizing s with
  | nil => exact Keeps.refl s
  | cons r rest ih =>
    unfold Part.readLane
    split
    · exact s.resetAll_keeps _ _
    · exact (s.serveRecord_keeps r.command).trans (ih _)

theorem Part.readLateLane_keeps (records : List LaneRecord) (s : Part) : Keeps s (Part.readLateLane records s) := by
  induction records generalizing s with
  | nil => exact Keeps.refl s
  | cons r rest ih =>
    unfold Part.readLateLane
    refine Keeps.trans ?_ (ih _)
    split
    · exact serveRequest_refuse_keeps _ _ _ s
    · exact serveRequest_refuse_keeps _ _ _ s

theorem Part.frameArrived_keeps (s : Part) (frame : List Byte) : Keeps s (s.frameArrived frame) := by
  unfold Part.frameArrived
  split
  · exact { bad := fun _ => bump255_le _ }
  · split
    · exact (s.serveFrame_keeps _).trans (Part.readLane_keeps _ _)
    · have counted : Keeps s { s with gateway := { s.gateway with lateCount := bump255 s.gateway.lateCount } } :=
        { late := fun _ => bump255_le _ }
      exact counted.trans (Part.readLateLane_keeps _ _)

theorem Part.timerExpired_keeps (s : Part) : Keeps s s.timerExpired := by
  unfold Part.timerExpired
  split
  · exact Keeps.refl s
  · exact (s.advanceTo_keeps _).trans (Part.serveFill_keeps _)

/-! ### The lines -/

theorem Part.eStopOpened_keeps (s : Part) : Keeps s s.eStopOpened := by
  unfold Part.eStopOpened
  split
  · exact Keeps.refl s
  · exact s.openEStop_work.toKeeps

theorem Part.guardOpened_keeps (s : Part) : Keeps s s.guardOpened := by
  unfold Part.guardOpened
  split
  · exact Keeps.refl s
  · exact s.openGuard_work.toKeeps

theorem Part.eStopClosed_keeps (s : Part) : Keeps s { s with seq := { s.seq with eStopOpen := false } } :=
  { chain := fun law => ⟨law.closed_iff, fun _ => rfl, law.in_run⟩ }

/-! ### Every command -/

/-- What a command leaves keeps the laws of what it found. -/
def KeepsLaws (s : State) (o : Host.Outcome State Fault Refusal) : Prop := ∀ t, o = .next t → Keeps s.part t.part

theorem KeepsLaws.next {s : State} {p : Part} (h : Keeps s.part p) (rest : List Instr) :
    KeepsLaws s (.next ⟨p, rest⟩) := fun t eq => by cases eq; exact h

theorem exec_keepsLaws (i : Instr) (s : State) : KeepsLaws s (exec i s) := by
  cases i with
  | cycleFrame time frame => exact .next ((s.part.advanceTo_keeps time).trans (Part.frameArrived_keeps _ frame)) _
  | fillCycle => exact .next s.part.timerExpired_keeps _
  | driveFrameReturn frame => exact .next (s.part.driveReturned_keeps frame) _
  | reset eStopOpen guardOpen => exact .next (s.part.resetAll_keeps _ _) _
  | eStopOpen => exact .next s.part.eStopOpened_keeps _
  | eStopClose => exact .next s.part.eStopClosed_keeps _
  | guardOpen => exact .next s.part.guardOpened_keeps _
  | guardClose => exact .next {} _
  | stillTimeout => exact .next s.part.checkStillTimeout_work.toKeeps _
  | brakeTimer => exact .next s.part.checkBrakeTimer_work.toKeeps _
  | brakeTimeout => exact .next s.part.checkBrakeTimeout_work.toKeeps _
  | releaseTimer => exact .next s.part.checkReleaseTimer_work.toKeeps _
  | armingTimeout => exact .next s.part.checkArmingTimeout_work.toKeeps _
  | syncEdge time => exact .next ((s.part.advanceTo_keeps time).trans (Part.candidate_keeps _ _)) _
  | lossTime => exact .next s.part.lossReached_keeps _
  | edgeSynthesis => exact .next s.part.synthesisReached_keeps _
  | phasePointExpiry => exact .next s.part.phasePointReached_keeps _
  | pageReadComplete => exact .next s.part.readCompleted_keeps _
  | pageProgramComplete => exact .next s.part.programCompleted_keeps _
  | bayEraseComplete => exact .next s.part.eraseCompleted_keeps _
  | scanReadComplete => exact .next s.part.scanReadCompleted_keeps _
  | autoPoll => exact .next s.part.checkAutoPoll_work.toKeeps _
  | malformedRecord kind tag => exact .next (s.part.serveRecord_keeps (.malformedRecord kind tag)) _
  | unknownRecord kind tag => exact .next (s.part.serveRecord_keeps (.unknownRecord kind tag)) _
  | gatewaySet tag period limit => exact .next (s.part.serveRecord_keeps (.gatewaySet tag period limit)) _
  | mode tag want => exact .next (s.part.serveRecord_keeps (.mode tag want)) _
  | restart tag => exact .next (s.part.serveRecord_keeps (.restart tag)) _
  | axisSet tag target record => exact .next (s.part.serveRecord_keeps (.axisSet tag target record)) _
  | axisRead tag target => exact .next (s.part.serveRecord_keeps (.axisRead tag target)) _
  | sourceLive tag mask => exact .next (s.part.serveRecord_keeps (.sourceLive tag mask)) _
  | geometrySet tag body => exact .next (s.part.serveRecord_keeps (.geometrySet tag body)) _
  | zoneSet tag body => exact .next (s.part.serveRecord_keeps (.zoneSet tag body)) _
  | zoneClear tag index => exact .next (s.part.serveRecord_keeps (.zoneClear tag index)) _
  | liveZoneUpdate tag index box => exact .next (s.part.serveRecord_keeps (.liveZoneUpdate tag index box)) _
  | zoneRead tag index => exact .next (s.part.serveRecord_keeps (.zoneRead tag index)) _
  | stop tag category => exact .next (s.part.serveRecord_keeps (.stop tag category)) _
  | rearm tag recover => exact .next (s.part.serveRecord_keeps (.rearm tag recover)) _
  | continueStop tag => exact .next (s.part.serveRecord_keeps (.continueStop tag)) _
  | lensModeSet tag channel mode => exact .next (s.part.serveRecord_keeps (.lensModeSet tag channel mode)) _
  | lensPoints tag body => exact .next (s.part.serveRecord_keeps (.lensPoints tag body)) _
  | lensCommit tag channel count => exact .next (s.part.serveRecord_keeps (.lensCommit tag channel count)) _
  | lensTableRead tag body => exact .next (s.part.serveRecord_keeps (.lensTableRead tag body)) _
  | targetUpdate tag body => exact .next (s.part.serveRecord_keeps (.targetUpdate tag body)) _
  | syncSet tag weight preset value => exact .next (s.part.serveRecord_keeps (.syncSet tag weight preset value)) _
  | recordStart tag body => exact .next (s.part.serveRecord_keeps (.recordStart tag body)) _
  | recordStop tag => exact .next (s.part.serveRecord_keeps (.recordStop tag)) _
  | takeErase tag slot => exact .next (s.part.serveRecord_keeps (.takeErase tag slot)) _
  | takeLock tag slot => exact .next (s.part.serveRecord_keeps (.takeLock tag slot)) _
  | protectionFreeze tag => exact .next (s.part.serveRecord_keeps (.protectionFreeze tag)) _
  | arrayClear tag => exact .next (s.part.serveRecord_keeps (.arrayClear tag)) _
  | directoryRead tag slot => exact .next (s.part.serveRecord_keeps (.directoryRead tag slot)) _
  | takeRead tag slot page => exact .next (s.part.serveRecord_keeps (.takeRead tag slot page)) _
  | takeImport tag body => exact .next (s.part.serveRecord_keeps (.takeImport tag body)) _
  | pageWrite tag slot page => exact .next (s.part.serveRecord_keeps (.pageWrite tag slot page)) _
  | importClose tag slot => exact .next (s.part.serveRecord_keeps (.importClose tag slot)) _
  | cueWrite tag body => exact .next (s.part.serveRecord_keeps (.cueWrite tag body)) _
  | cueRead tag index => exact .next (s.part.serveRecord_keeps (.cueRead tag index)) _
  | cuePoll tag => exact .next (s.part.serveRecord_keeps (.cuePoll tag)) _
  | playerStart tag interval => exact .next (s.part.serveRecord_keeps (.playerStart tag interval)) _
  | playerStop tag => exact .next (s.part.serveRecord_keeps (.playerStop tag)) _
  | go tag => exact .next (s.part.serveRecord_keeps (.go tag)) _
  | resume tag => exact .next (s.part.serveRecord_keeps (.resume tag)) _
  | abandon tag => exact .next (s.part.serveRecord_keeps (.abandon tag)) _

theorem step_keeps {s t : State} (stepped : step s = .next t) : Keeps s.part t.part := by
  unfold step at stepped
  split at stepped
  · cases stepped; exact Keeps.refl _
  · next rest _ => exact exec_keepsLaws _ { s with pending := rest } t stepped

/-! ### What every step keeps -/

/-- Settles O38, by the laws that every piece of work keeps. -/
theorem stopLawsKept : Obligations.StopLawsKept := by
  unfold Obligations.StopLawsKept
  intro s t chain recovery play stepped
  have kept := step_keeps stepped
  exact ⟨kept.chain chain, kept.recovery recovery, kept.play play⟩

/-- Settles O16, by the laws that every piece of work keeps. -/
theorem baysStandOnce : Obligations.BaysStandOnce := by
  unfold Obligations.BaysStandOnce
  exact fun _ _ law stepped => (step_keeps stepped).bays law

/-- Settles O40, by the laws that every piece of work keeps. -/
theorem memoryStaysCanonical : Obligations.MemoryStaysCanonical := by
  unfold Obligations.MemoryStaysCanonical
  exact fun _ _ canonical stepped => (step_keeps stepped).memory canonical

/-- Settles O41, by the laws that every piece of work keeps. -/
theorem rangesKept : Obligations.RangesKept := by
  unfold Obligations.RangesKept
  intro s t counters scale stepped
  have kept := step_keeps stepped
  exact ⟨⟨kept.late counters.late, kept.bad counters.bad, kept.controllerMiss counters.controllerMiss,
    kept.driveMiss counters.driveMiss, kept.dropped counters.dropped, kept.phase counters.phase,
    kept.missed counters.missed, kept.autoPoll counters.autoPoll⟩, kept.scale scale⟩

/-- Settles O45: the shaper's step stays in the window, and every piece of work keeps the window law. -/
theorem windowHolds : Obligations.WindowHolds := by
  unfold Obligations.WindowHolds
  refine ⟨fun ch r w amax veff pos ordered inside => ⟨?_, ?_⟩, fun s t chain play window stepped => ?_⟩
  · exact Channel.shape_inWindow r veff pos ordered inside
  · exact Channel.shape_speed ch r w amax veff
  · exact (step_keeps stepped).window chain.in_run play window

/-- Settles O42, law by law. -/
theorem resetMeetsTheLaws : Obligations.ResetMeetsTheLaws := by
  unfold Obligations.ResetMeetsTheLaws
  refine ⟨⟨by decide, by decide, by decide⟩, fun _ => rfl, fun _ => ⟨rfl, rfl⟩, ?_, rfl, ?_, Part.reset_scale,
    .of_setup rfl rfl Part.reset_sane Part.reset_track, Part.reset_bayLaw, ?_⟩
  · exact ⟨by decide, List.Pairwise.nil, fun _ none => absurd none List.not_mem_nil,
      fun _ none => absurd none List.not_mem_nil⟩
  · exact ⟨by decide, by decide, by decide, by decide, by decide, by decide, by decide, by decide⟩
  · exact ⟨fun _ => rfl, nofun, nofun, nofun⟩

end Sys2Proof.Machine
end

section
set_option Elab.async false
/-! SETTLED. What an event that is not due does. -/

namespace Sys2Proof.Machine

/-! ### Events that are not due -/

theorem Part.allConfirmed_iff (s : Part) : s.allConfirmed = true ↔
    ∀ a : Axis, s.shaper.axes[Axis.slot a].present = true → s.seq.axes[a].confirmed = true := by
  simp [Part.allConfirmed, Shaper.motion, allAxes, Decidable.imp_iff_not_or]

section
variable {s : Part}

theorem Part.checkStillTimeout_early
    (early : s.seq.state ≠ .settling ∨ s.seq.phaseCount < s.shaper.timing.stillTimeout) :
    s.checkStillTimeout = s := by
  rw [Part.checkStillTimeout, if_neg]
  rintro ⟨settling, due⟩
  exact early.elim (· settling) (Nat.not_lt.mpr due)

theorem Part.checkBrakeTimer_early
    (early : s.seq.state ≠ .braking ∨ s.seq.phaseCount < s.shaper.timing.brakeTimer) : s.checkBrakeTimer = s := by
  rw [Part.checkBrakeTimer, if_neg]
  rintro ⟨braking, due⟩
  exact early.elim (· braking) (Nat.not_lt.mpr due)

theorem Part.checkBrakeTimeout_early
    (early : s.seq.state ≠ .braking ∨ s.seq.phaseCount < s.shaper.timing.brakeTimeout ∨
      ∀ a : Axis, s.shaper.axes[Axis.slot a].present = true → s.seq.axes[a].confirmed = true) :
    s.checkBrakeTimeout = s := by
  rw [Part.checkBrakeTimeout, if_neg]
  rintro ⟨braking, due, unconfirmed⟩
  rw [← Part.allConfirmed_iff] at early
  rcases early with other | before | confirmed
  · exact other braking
  · exact Nat.not_lt.mpr due before
  · simp [confirmed] at unconfirmed

theorem Part.checkReleaseTimer_early
    (early : s.seq.state ≠ .arming ∨ s.seq.readiness = false ∨
      s.seq.releaseServed < s.shaper.timing.brakeTimer) : s.checkReleaseTimer = s := by
  rw [Part.checkReleaseTimer, if_neg]
  rintro ⟨arming, ready, due⟩
  rcases early with other | unready | before
  · exact other arming
  · exact Bool.false_ne_true (unready.symm.trans ready)
  · exact Nat.not_lt.mpr due before

theorem Part.checkArmingTimeout_early
    (early : s.seq.state ≠ .arming ∨ s.seq.phaseCount < s.shaper.timing.armingTimeout) :
    s.checkArmingTimeout = s := by
  rw [Part.checkArmingTimeout, if_neg]
  rintro ⟨arming, due⟩
  exact early.elim (· arming) (Nat.not_lt.mpr due)

theorem Part.lossReached_early (early : s.sync.state ≠ .locked ∨ s.sync.lossTime = none) : s.lossReached = s := by
  unfold Part.lossReached
  split
  · next locked set => exact absurd early (by simp [locked, set])
  · rfl

theorem Part.synthesisReached_early (early : s.sync.state ≠ .freewheel ∨ s.sync.nextSynth = none) :
    s.synthesisReached = s := by
  unfold Part.synthesisReached
  split
  · next freewheel set => exact absurd early (by simp [freewheel, set])
  · rfl

theorem Part.phasePointReached_early (early : s.sync.phasePoint = none) : s.phasePointReached = s := by
  rw [Part.phasePointReached, early]

/-- A job in progress that is a read. -/
def Operation.Reads (o : Operation) : Prop :=
  (∃ i k w, o = .job (.playerRead i k) w) ∨ ∃ n i k w, o = .job (.takeRead n i k) w

theorem Operation.reads_job_iff (j : Job) (w : Bool) : (Operation.job j w).Reads ↔ j.isRead = true := by
  cases j <;> simp [Operation.Reads, Job.isRead]

theorem Part.readCompleted_early (early : ∀ o, s.array.operation = some o → ¬ o.Reads) : s.readCompleted = s := by
  unfold Part.readCompleted
  split
  · next j w operation =>
    rw [if_neg]
    rw [← Operation.reads_job_iff j w]
    exact early _ operation
  · rfl
  · rfl

theorem Part.programCompleted_early
    (early : ∀ o, s.array.operation = some o → o.Reads ∨ ∃ bay, o = .erase bay) : s.programCompleted = s := by
  unfold Part.programCompleted
  split
  · next j w operation =>
    have reads := (early _ operation).resolve_right (fun ⟨_, erase⟩ => Operation.noConfusion erase)
    rw [if_pos ((Operation.reads_job_iff j w).mp reads)]
  · rfl
  · rfl

theorem Part.eraseCompleted_early (early : ∀ o, s.array.operation = some o → ¬ ∃ bay, o = .erase bay) :
    s.eraseCompleted = s := by
  unfold Part.eraseCompleted
  split
  · next bay operation => exact absurd ⟨bay, rfl⟩ (early _ operation)
  · rfl
  · rfl

theorem Part.checkAutoPoll_early
    (early : s.player.state ≠ .suspended ∨ s.player.autoInterval = 0 ∨
      s.player.autoCount < s.player.autoInterval) : s.checkAutoPoll = s := by
  rw [Part.checkAutoPoll, if_neg]
  rintro ⟨suspended, polls, due⟩
  rcases early with other | never | before
  · exact other suspended
  · exact polls never
  · exact Nat.not_lt.mpr due before

end

/-- A command that leaves the part as it is leaves the state as it is. -/
theorem next_same {s : State} {p : Part} (same : p = s.part) :
    (.next { s with part := p } : Host.Outcome State Fault Refusal) = .next s := by
  rw [same]

/-- Settles O37, event by event: each tests first whether it is due. -/
theorem eventsNotDueChangeNothing : Obligations.EventsNotDueChangeNothing := by
  unfold Obligations.EventsNotDueChangeNothing
  intro s
  refine ⟨fun opened => next_same (if_pos opened), fun opened => next_same (if_pos opened), fun off => ?_,
    ⟨fun early => next_same (Part.checkStillTimeout_early early),
      fun early => next_same (Part.checkBrakeTimer_early early),
      fun early => next_same (Part.checkBrakeTimeout_early early),
      fun early => next_same (Part.checkReleaseTimer_early early),
      fun early => next_same (Part.checkArmingTimeout_early early)⟩,
    fun early => next_same (Part.lossReached_early early),
    fun early => next_same (Part.synthesisReached_early early),
    fun early => next_same (Part.phasePointReached_early early),
    ⟨fun early => next_same (Part.readCompleted_early early),
      fun early => next_same (Part.programCompleted_early early),
      fun early => next_same (Part.eraseCompleted_early early)⟩,
    fun none => next_same ?_, fun early => next_same (Part.checkAutoPoll_early early)⟩
  · exact next_same (by rw [Part.timerExpired, off])
  · rw [Part.scanReadCompleted, none]

end Sys2Proof.Machine
end

section
/-! SETTLED. What a request of the lane is, whoever decides it: its command and its record, a full reply queue, a
refusal, the records of a lane. -/

namespace Sys2Proof.Machine

/-! ### A request as a command, and its owner -/

/-- A request taken as a command is what its record does in a lane (log 2). -/
theorem exec_request {i : Instr} (request : (kindOf i).isSome) (s : State) :
    exec i s = .next { s with part := s.part.serveRecord i } := by
  cases i
  case cycleFrame | fillCycle | driveFrameReturn | malformedRecord | unknownRecord | reset | eStopOpen | eStopClose |
      guardOpen | guardClose | stillTimeout | brakeTimer | brakeTimeout | releaseTimer | armingTimeout | syncEdge |
      lossTime | edgeSynthesis | phasePointExpiry | pageReadComplete | pageProgramComplete | bayEraseComplete |
      scanReadComplete | autoPoll => exact nomatch request
  all_goals rfl

/-- A request but a Restart is answered by its owner. -/
theorem serveRecord_owner {i : Instr} {k : Byte} {run : Nat → Part → Served} (kind : kindOf i = some k)
    (owner : ownerOf i = some run) (other : Instr.isRestart i = false) (s : Part) :
    s.serveRecord i = serveRequest k (tagOf i) run s := by
  cases i
  case cycleFrame | fillCycle | driveFrameReturn | malformedRecord | unknownRecord | reset | eStopOpen | eStopClose |
      guardOpen | guardClose | stillTimeout | brakeTimer | brakeTimeout | releaseTimer | armingTimeout | syncEdge |
      lossTime | edgeSynthesis | phasePointExpiry | pageReadComplete | pageProgramComplete | bayEraseComplete |
      scanReadComplete | autoPoll => exact nomatch kind
  case restart => exact nomatch other
  all_goals
    cases kind
    cases owner
    rfl

/-- Every request has an owner. -/
theorem exists_owner {i : Instr} (request : (kindOf i).isSome) : ∃ run, ownerOf i = some run := by
  cases i
  case cycleFrame | fillCycle | driveFrameReturn | malformedRecord | unknownRecord | reset | eStopOpen | eStopClose |
      guardOpen | guardClose | stillTimeout | brakeTimer | brakeTimeout | releaseTimer | armingTimeout | syncEdge |
      lossTime | edgeSynthesis | phasePointExpiry | pageReadComplete | pageProgramComplete | bayEraseComplete |
      scanReadComplete | autoPoll => exact nomatch request
  all_goals exact ⟨_, rfl⟩

theorem Instr.isRestart_iff (i : Instr) : Instr.isRestart i = true ↔ ∃ tag, i = .restart tag := by
  cases i <;> simp [Instr.isRestart]

theorem Part.restarts_iff (s : Part) :
    s.restarts = true ↔ s.lane.queue.length < 32 ∧ s.lane.mode = .setup := by
  rw [Part.restarts, Bool.and_eq_true, decide_eq_true_iff, decide_eq_true_iff, queueLimit]

/-! ### A full reply queue -/

theorem Part.serveRestart_full {s : Part} (full : queueLimit ≤ s.lane.queue.length) (tag : Byte) :
    s.serveRestart tag = { s with lane := s.lane.drop } := by
  have busy : s.restarts = false := by
    rw [Part.restarts, decide_eq_false (Nat.not_lt.mpr full), Bool.false_and]
  rw [Part.serveRestart, busy, if_neg Bool.false_ne_true]
  exact serveRequest_full full

theorem serveRecord_full {i : Instr} (request : (kindOf i).isSome) {s : Part}
    (full : queueLimit ≤ s.lane.queue.length) : s.serveRecord i = { s with lane := s.lane.drop } := by
  obtain ⟨k, kind⟩ := Option.isSome_iff_exists.mp request
  obtain ⟨run, owner⟩ := exists_owner request
  cases restart : Instr.isRestart i
  · rw [serveRecord_owner kind owner restart]
    exact serveRequest_full full
  · obtain ⟨tag, rfl⟩ := (Instr.isRestart_iff i).mp restart
    exact Part.serveRestart_full full tag

/-- Settles O3: every request and every record without an owner is read through the reply queue. -/
theorem fullQueueDropsRequests : Obligations.FullQueueDropsRequests := by
  unfold Obligations.FullQueueDropsRequests
  intro i s record full
  have dropped (p : Part) (same : p = { s.part with lane := s.part.lane.drop }) :
      (.next { s with part := p } : Host.Outcome State Fault Refusal) = .next { s with part := { s.part with
        lane := { s.part.lane with dropped := min 255 (s.part.lane.dropped + 1) } } } := by
    rw [same, ServiceLane.drop, bump255, Nat.min_comm]
  rcases record with request | ⟨kind, tag, rfl⟩ | ⟨kind, tag, rfl⟩
  · rw [exec_request request]
    exact dropped _ (serveRecord_full request full)
  · exact dropped _ (serveRequest_full full)
  · exact dropped _ (serveRequest_full full)

/-! ### Refusals -/

/-- An answer of an owner, given on p: where it refuses, it carries no data and p stays as it is. -/
def Refuses (p : Part) (r : Served) : Prop :=
  ∀ a, r.2 = some a → a.code.accepts = false → r = (p, some a) ∧ a.data = []

section
variable {p t : Part}

theorem refuses_refuse (code : ResultCode) : Refuses p (refuse p code) := by
  intro a answered _
  cases answered
  exact ⟨rfl, rfl⟩

/-- An answer with an accepting code refuses nothing. -/
theorem Refuses.of_accepts {a : Answer} (accepts : a.code.accepts = true) : Refuses p (t, some a) := by
  intro b answered refused
  cases answered
  exact absurd (accepts.symm.trans refused) (by decide)

theorem refuses_done : Refuses p (done t) := .of_accepts rfl
theorem refuses_doneWith (data : List Byte) : Refuses p (doneWith t data) := .of_accepts rfl
theorem refuses_started : Refuses p (started t) := .of_accepts rfl
theorem refuses_waiting : Refuses p (t, none) := nofun

end

/-- Whatever a request asks, its owner's refusal leaves the part as it is. -/
theorem refuses_owner {i : Instr} {run : Nat → Part → Served} (owner : ownerOf i = some run) (n : Nat) (p : Part) :
    Refuses p (run n p) := by
  cases i
  case cycleFrame | fillCycle | driveFrameReturn | malformedRecord | unknownRecord | reset | eStopOpen | eStopClose |
      guardOpen | guardClose | stillTimeout | brakeTimer | brakeTimeout | releaseTimer | armingTimeout | syncEdge |
      lossTime | edgeSynthesis | phasePointExpiry | pageReadComplete | pageProgramComplete | bayEraseComplete |
      scanReadComplete | autoPoll => exact nomatch owner
  all_goals
    cases owner
    simp only [Part.requestGatewaySet, Part.requestMode, Part.requestAxisSet, Part.axisSetChannel, Part.axisSetTiming,
      Part.requestAxisRead, Part.requestSourceLive, Part.requestGeometrySet, Part.requestZoneSet, Part.judgeZone,
      Part.requestZoneClear, Part.requestLiveZoneUpdate, Part.requestZoneRead, Part.requestStop, Part.requestRearm,
      Part.requestContinue, Part.requestLensModeSet, Part.judgeMode, Part.requestLensPoints, Part.requestLensCommit,
      Part.requestLensTableRead, Part.requestTargetUpdate, Part.requestSyncSet, Part.requestRecordStart,
      Part.judgeRecord, Part.requestRecordStop, Part.requestTakeErase, Part.requestTakeLock, Part.requestFreeze,
      Part.requestArrayClear, Part.requestDirectoryRead, Part.requestTakeRead, Part.requestTakeImport,
      Part.requestPageWrite, Part.placePage, Part.requestImportClose, Part.requestCueWrite, Part.requestCueRead,
      Part.requestCuePoll, Part.requestPlayerStart, Part.requestPlayerStop, Part.requestGo, Part.requestResume,
      Part.requestAbandon]
    repeat' split
    all_goals simp only [refuses_refuse, refuses_done, refuses_doneWith, refuses_started, refuses_waiting]

end Sys2Proof.Machine
end

section
/-! SETTLED. Refused requests, the records of a served lane in their order, and the records without an owner. -/

namespace Sys2Proof.Machine

/-! ### Refusals -/

/-- A Restart is refused in Run only, WrongMode. -/
theorem restart_refused {mode : PartMode} {p : Part} {a : Answer}
    (answered : (if mode = .setup then done p else refuse p .wrongMode).2 = some a)
    (code : a.code.accepts = false) : mode ≠ .setup ∧ a = ⟨.wrongMode, []⟩ := by
  split at answered
  · cases answered
    exact nomatch code
  · next run =>
    cases answered
    exact ⟨run, rfl⟩

theorem Part.serveRestart_run {s : Part} (run : s.lane.mode ≠ .setup) (tag : Byte) :
    s.serveRestart tag = serveRequest 0x03#8 tag (fun _ p => refuse p .wrongMode) s := by
  have busy : s.restarts = false := by rw [Part.restarts, decide_eq_false run, Bool.and_false]
  rw [Part.serveRestart, busy, if_neg Bool.false_ne_true]

/-- Settles O5: an owner's refusal leaves the part as it is, and the reply reserved is the refusal's. -/
theorem refusedRequestsChangeNothing : Obligations.RefusedRequestsChangeNothing := by
  unfold Obligations.RefusedRequestsChangeNothing
  intro i k run a s kind owner room answered code
  obtain ⟨same, noData⟩ := refuses_owner owner s.part.lane.nextTicket _ a answered code
  refine ⟨noData, ?_⟩
  rw [exec_request (by rw [kind]; rfl)]
  cases restart : Instr.isRestart i
  · rw [serveRecord_owner kind owner restart, serveRequest_refused room same]
  · obtain ⟨tag, rfl⟩ := (Instr.isRestart_iff i).mp restart
    cases kind
    cases owner
    obtain ⟨inRun, rfl⟩ := restart_refused (mode := s.part.lane.mode) answered code
    have served : s.part.serveRestart tag = s.part.push 0x03#8 tag ⟨.wrongMode, []⟩ := by
      rw [Part.serveRestart_run inRun]
      exact serveRequest_refused room rfl
    exact congrArg (fun p => Host.Outcome.next { s with part := p }) served

/-! ### The records of a served lane -/

/-- A record of a lane that is read on a part and resets it. -/
def LaneRecord.Resets (r : LaneRecord) (p : Part) : Prop := Instr.isRestart r.command ∧ p.restarts

/-- The records of a lane executed one after another. -/
def Part.runRecords (p : Part) (rs : List LaneRecord) : Part := rs.foldl (fun p r => p.serveRecord r.command) p

theorem LaneRecord.resets_iff (r : LaneRecord) (p : Part) : r.Resets p ↔
    (∃ tag, r.command = .restart tag) ∧ p.lane.mode = .setup ∧ p.lane.queue.length < 32 := by
  rw [LaneRecord.Resets, Instr.isRestart_iff, Part.restarts_iff, and_comm (a := p.lane.queue.length < 32)]

theorem Part.readLane_cons {r : LaneRecord} {p : Part} (goes : ¬ r.Resets p) (rest : List LaneRecord) :
    Part.readLane (r :: rest) p = Part.readLane rest (p.serveRecord r.command) := if_neg goes

theorem Part.readLane_of_no_reset {rs : List LaneRecord} {p : Part}
    (none : ∀ before r rest, rs = before ++ r :: rest → ¬ r.Resets (p.runRecords before)) :
    Part.readLane rs p = p.runRecords rs := by
  induction rs generalizing p with
  | nil => rfl
  | cons r rest ih =>
    have goes : ¬ r.Resets p := none [] r rest rfl
    rw [Part.readLane_cons goes]
    exact ih fun before q later split => none (r :: before) q later (congrArg (r :: ·) split)

theorem Part.readLane_of_reset {before : List LaneRecord} {r : LaneRecord} {rest : List LaneRecord} {p : Part}
    (resets : r.Resets (p.runRecords before))
    (first : ∀ b q c, before = b ++ q :: c → ¬ q.Resets (p.runRecords b)) :
    Part.readLane (before ++ r :: rest) p = (p.runRecords before).restartReset := by
  induction before generalizing p with
  | nil => exact if_pos resets
  | cons q later ih =>
    have goes : ¬ q.Resets p := first [] q later rfl
    rw [List.cons_append, Part.readLane_cons goes]
    exact ih resets fun b x c split => first (q :: b) x c (congrArg (q :: ·) split)

theorem frameArrived_served {p : Part} {frame : List Byte} {f : CycleFrame} (read : CycleFrame.ofBytes frame = some f)
    (accepted : p.gateway.accepts f.cycle) :
    p.frameArrived frame = Part.readLane (laneRecords f.lane) (p.serveFrame f) := by
  rw [Part.frameArrived, read]
  exact if_pos accepted

/-- A Restart that finds room in Setup resets the part as a command too. -/
theorem exec_resets {r : LaneRecord} {p : Part} (resets : r.Resets p) (s : State) :
    exec r.command { s with part := p } = .next { s with part := p.restartReset } := by
  obtain ⟨restart, reads⟩ := resets
  obtain ⟨tag, eq⟩ := (Instr.isRestart_iff r.command).mp restart
  have served : p.serveRestart tag = p.restartReset := if_pos reads
  rw [eq, ← served]
  rfl

/-- Settles O2, by induction on the records of the lane. -/
theorem laneRecordsRunInOrder : Obligations.LaneRecordsRunInOrder := by
  unfold Obligations.LaneRecordsRunInOrder
  refine ⟨fun i s request => exec_request request s, fun time frame f s read accepted => ?_⟩
  have served : exec (.cycleFrame time frame) s = .next { s with
      part := Part.readLane (laneRecords f.lane) ((s.part.advanceTo time).serveFrame f) } :=
    congrArg (fun p => (.next { s with part := p } : Host.Outcome State Fault Refusal)) (frameArrived_served (p := s.part.advanceTo time) read accepted)
  dsimp only
  rw [served]
  refine ⟨fun none => ?_, fun before r rest lane resets first => ?_⟩
  · rw [Part.readLane_of_no_reset fun before r rest lane resets =>
      none before r rest lane ((r.resets_iff _).mp resets)]
    rfl
  · have now := (r.resets_iff (((s.part.advanceTo time).serveFrame f).runRecords before)).mpr resets
    rw [lane, Part.readLane_of_reset now fun b q c split earlier => first b q c split ((q.resets_iff _).mp earlier)]
    exact (exec_resets now s).symm

/-! ### Records without an owner -/

/-- The kinds of the catalogue (section 11.3). -/
def KnownKind (kind : Byte) : Prop :=
  (1 ≤ kind.toNat ∧ kind.toNat ≤ 3) ∨ (0x10 ≤ kind.toNat ∧ kind.toNat ≤ 0x12) ∨
  (0x20 ≤ kind.toNat ∧ kind.toNat ≤ 0x24) ∨ (0x30 ≤ kind.toNat ∧ kind.toNat ≤ 0x32) ∨
  (0x40 ≤ kind.toNat ∧ kind.toNat ≤ 0x44) ∨ kind.toNat = 0x50 ∨
  (0x60 ≤ kind.toNat ∧ kind.toNat ≤ 0x6A) ∨ (0x70 ≤ kind.toNat ∧ kind.toNat ≤ 0x77)

theorem cycleRequest_known {n : Nat} {tag : Byte} {body : List Byte} {i : Instr}
    (read : cycleRequest n tag body = some i) : kindOf i = some (BitVec.ofNat 8 n) ∧ tagOf i = tag ∧ n < 256 := by
  unfold cycleRequest at read
  split at read
  case h_21 => exact nomatch read
  all_goals
    cases read
    exact ⟨rfl, rfl, by decide⟩

theorem takeRequest_known {n : Nat} {tag : Byte} {body : List Byte} {i : Instr}
    (read : takeRequest n tag body = some i) : kindOf i = some (BitVec.ofNat 8 n) ∧ tagOf i = tag ∧ n < 256 := by
  unfold takeRequest at read
  split at read
  case h_20 => exact nomatch read
  all_goals
    cases read
    exact ⟨rfl, rfl, by decide⟩

/-- A record of a known kind is the request of that kind, with its tag. -/
theorem requestOf_eq_some {kind tag : Byte} {body : List Byte} {i : Instr} (read : requestOf kind tag body = some i) :
    kindOf i = some kind ∧ tagOf i = tag := by
  have back : BitVec.ofNat 8 kind.toNat = kind := by simp
  unfold requestOf at read
  split at read
  · next cycle =>
    cases read
    obtain ⟨of, tags, -⟩ := cycleRequest_known cycle
    exact ⟨back ▸ of, tags⟩
  · obtain ⟨of, tags, -⟩ := takeRequest_known read
    exact ⟨back ▸ of, tags⟩

/-- Exactly the kinds of the catalogue spell a request. -/
theorem requestOf_eq_none_iff (kind tag : Byte) (body : List Byte) :
    requestOf kind tag body = none ↔ ¬ KnownKind kind := by
  unfold requestOf cycleRequest takeRequest KnownKind
  split
  · next cycle =>
    refine ⟨nofun, fun unknown => absurd ?_ unknown⟩
    split at cycle
    case h_21 => simp at cycle
    all_goals omega
  · next cycle =>
    split at cycle
    case h_21 =>
      split
      case h_20 =>
        simp only [imp_false] at *
        simp only [true_iff]
        omega
      all_goals
        refine ⟨nofun, fun unknown => absurd ?_ unknown⟩
        omega
    all_goals simp at cycle

/-- A record of a lane is malformed (R20). -/
def BadRecord (lane : List Byte) : Prop :=
  lane.length < 4 ∨ fieldNat lane 2 2 < 4 ∨ 480 < fieldNat lane 2 2 ∨ lane.length < fieldNat lane 2 2 ∨
    ∃ m, minLength (byteAt lane 0) = some m ∧ fieldNat lane 2 2 < m

theorem recordLength_bad {lane : List Byte} (bad : BadRecord lane) : recordLength lane = none := by
  unfold recordLength
  dsimp only
  split
  · rfl
  · next sized =>
    have short : ∃ m, minLength (byteAt lane 0) = some m ∧ fieldNat lane 2 2 < m := by
      unfold BadRecord at bad
      rcases bad with header | low | high | fits | short
      · exact absurd (.inl header) sized
      · exact absurd (.inr (.inl low)) sized
      · exact absurd (.inr (.inr (.inl high))) sized
      · exact absurd (.inr (.inr (.inr fits))) sized
      · exact short
    obtain ⟨m, least, short⟩ := short
    rw [least]
    exact if_pos short

theorem recordLength_good {lane : List Byte} (good : ¬ BadRecord lane) :
    recordLength lane = some (fieldNat lane 2 2) ∧ 4 ≤ fieldNat lane 2 2 := by
  unfold BadRecord at good
  simp only [not_or, Nat.not_lt, not_exists, not_and] at good
  obtain ⟨header, low, high, fits, least⟩ := good
  refine ⟨?_, low⟩
  unfold recordLength
  dsimp only
  rw [if_neg (by omega)]
  split
  · next m known => exact if_neg (Nat.not_lt.mpr (least m known))
  · rfl

/-- What follows the first record of a lane is shorter than the lane. -/
theorem firstRecord_shorter (b : Byte) (bs : List Byte) : (firstRecord (b :: bs)).2.length ≤ bs.length := by
  unfold firstRecord
  dsimp only
  split
  · exact Nat.zero_le _
  · next len known =>
    have long : 1 ≤ len := by
      by_cases bad : BadRecord (b :: bs)
      · rw [recordLength_bad bad] at known
        exact nomatch known
      · obtain ⟨eq, low⟩ := recordLength_good bad
        rw [eq] at known
        cases known
        omega
    have shorter : ((b :: bs).drop len).length ≤ bs.length := by
      simp only [List.length_drop, List.length_cons]
      omega
    split <;> exact shorter

/-- More fuel than the lane is long reads no more records. -/
theorem laneRecordsAux_enough {fuel fuel' : Nat} {lane : List Byte} (enough : lane.length ≤ fuel)
    (enough' : lane.length ≤ fuel') : laneRecordsAux fuel lane = laneRecordsAux fuel' lane := by
  induction fuel generalizing fuel' lane with
  | zero =>
    rw [List.length_eq_zero_iff.mp (Nat.le_zero.mp enough)]
    cases fuel' <;> rfl
  | succ fuel ih =>
    cases lane with
    | nil => cases fuel' <;> rfl
    | cons b bs =>
      obtain ⟨more, rfl⟩ := Nat.exists_eq_succ_of_ne_zero (Nat.ne_of_gt (Nat.lt_of_lt_of_le (Nat.succ_pos _) enough'))
      have fewer := firstRecord_shorter b bs
      exact congrArg ((firstRecord (b :: bs)).1 :: ·)
        (ih (Nat.le_trans fewer (Nat.le_of_succ_le_succ enough)) (Nat.le_trans fewer (Nat.le_of_succ_le_succ enough')))

/-- The records of a lane: the first, then those of what follows it. -/
theorem laneRecords_eq {lane : List Byte} (some : lane ≠ []) :
    laneRecords lane = (firstRecord lane).1 :: laneRecords (firstRecord lane).2 := by
  cases lane with
  | nil => exact absurd rfl some
  | cons b bs =>
    exact congrArg ((firstRecord (b :: bs)).1 :: ·) (laneRecordsAux_enough (firstRecord_shorter b bs) (Nat.le_refl _))

theorem firstRecord_bad {lane : List Byte} (bad : BadRecord lane) : firstRecord lane =
    (⟨byteAt lane 0, byteAt lane 1, .malformedRecord (byteAt lane 0) (byteAt lane 1)⟩, []) := by
  rw [firstRecord, recordLength_bad bad]

theorem firstRecord_good {lane : List Byte} (good : ¬ BadRecord lane) :
    ∃ i : Instr, firstRecord lane = (⟨byteAt lane 0, byteAt lane 1, i⟩, lane.drop (fieldNat lane 2 2)) ∧
      (KnownKind (byteAt lane 0) → kindOf i = some (byteAt lane 0) ∧ tagOf i = byteAt lane 1) ∧
      (¬ KnownKind (byteAt lane 0) → i = .unknownRecord (byteAt lane 0) (byteAt lane 1)) := by
  rw [firstRecord, (recordLength_good good).1]
  dsimp only
  split
  · next i read =>
    refine ⟨i, rfl, fun _ => requestOf_eq_some read, fun unknown => ?_⟩
    rw [(requestOf_eq_none_iff _ _ _).mpr unknown] at read
    exact nomatch read
  · next read =>
    exact ⟨_, rfl, fun known => absurd known ((requestOf_eq_none_iff _ _ _).mp read), fun _ => rfl⟩

/-- Settles O4: the refusals of the two records, and the first record of a lane as its header reads. -/
theorem recordsWithoutOwner : Obligations.RecordsWithoutOwner := by
  unfold Obligations.RecordsWithoutOwner
  refine ⟨fun kind tag s room => ⟨?_, ?_⟩, fun lane some => ⟨fun bad => ?_, fun good => ?_⟩⟩
  · exact congrArg (fun p => (.next { s with part := p } : Host.Outcome State Fault Refusal))
      (serveRequest_refused room rfl)
  · exact congrArg (fun p => (.next { s with part := p } : Host.Outcome State Fault Refusal))
      (serveRequest_refused room rfl)
  · rw [laneRecords_eq some, firstRecord_bad bad]
    rfl
  · obtain ⟨i, read, kinds⟩ := firstRecord_good good
    exact ⟨i, by rw [laneRecords_eq some, read], kinds⟩

end Sys2Proof.Machine
end

section
/-! SETTLED. The settings of the gateway and the sync unit, the axis records, and the part mode. -/

namespace Sys2Proof.Machine

/-! ### A request answered at once -/

/-- The part that an owner judges a request on: its reply is reserved. -/
def Part.reserving (s : Part) (kind tag : Byte) : Part := { s with lane := s.lane.reserve kind tag }

section
variable {i : Instr} {k : Byte} {run : Nat → Part → Served} {s : State} {p : Part} {a : Answer}

/-- The request of a part with room whose owner leaves p and answers at once. -/
theorem exec_answered (room : s.part.Room) (kind : kindOf i = some k) (owner : ownerOf i = some run)
    (other : Instr.isRestart i = false)
    (answered : run s.part.lane.nextTicket (s.part.reserving k (tagOf i)) =
      (p.reserving k (tagOf i), some a))
    (queue : p.lane.queue = s.part.lane.queue) (next : p.lane.nextTicket = s.part.lane.nextTicket) :
    exec i s = .next { s with part := p.push k (tagOf i) a } := by
  rw [exec_request (by rw [kind]; rfl), serveRecord_owner kind owner other,
    serveRequest_answered room answered queue next]

/-- The request of a part with room whose owner leaves it as it is and answers at once. -/
theorem exec_unchanged (room : s.part.Room) (kind : kindOf i = some k) (owner : ownerOf i = some run)
    (other : Instr.isRestart i = false)
    (answered : run s.part.lane.nextTicket (s.part.reserving k (tagOf i)) =
      (s.part.reserving k (tagOf i), some a)) :
    exec i s = .next { s with part := s.part.push k (tagOf i) a } :=
  exec_answered room kind owner other answered rfl rfl

end

/-! ### Gateway Set and Sync Set -/

section
variable {s : Part}

theorem Part.requestGatewaySet_run (run : s.lane.mode = .run) (period limit : Nat) :
    s.requestGatewaySet period limit = refuse s .wrongMode := if_pos run

theorem Part.requestGatewaySet_range (setup : s.lane.mode ≠ .run) {period limit : Nat}
    (out : period < 250 ∨ 4000 < period ∨ limit < 1 ∨ 8 < limit) :
    s.requestGatewaySet period limit = refuse s .range := by
  rw [Part.requestGatewaySet, if_neg setup, if_neg (by omega)]

theorem Part.requestGatewaySet_done (setup : s.lane.mode ≠ .run) {period limit : Nat}
    (inside : ¬ (period < 250 ∨ 4000 < period ∨ limit < 1 ∨ 8 < limit)) :
    s.requestGatewaySet period limit =
      done { s with gateway := { s.gateway with period := period, missLimit := limit } } := by
  rw [Part.requestGatewaySet, if_neg setup, if_pos (by omega)]

theorem RecorderState.holdsCount_iff (st : RecorderState) :
    st.holdsCount = true ↔ st = .armed ∨ st = .recording ∨ st = .stalled := by
  cases st <;> simp [RecorderState.holdsCount]

theorem testBit_zero_of_odd {n : Nat} (odd : n % 2 = 1) : n.testBit 0 = true := by simp [Nat.testBit_zero, odd]

theorem testBit_zero_of_even {n : Nat} (even : n % 2 = 0) : n.testBit 0 = false := by simp [Nat.testBit_zero, even]

theorem Part.requestSyncSet_range {weight : Nat} (heavy : 255 < weight) (preset value : Nat) :
    s.requestSyncSet weight preset value = refuse s .range := if_pos heavy

theorem Part.requestSyncSet_busy {weight preset : Nat} (light : weight ≤ 255) (odd : preset % 2 = 1)
    (taking : s.recorder.state.holdsCount = true) (value : Nat) :
    s.requestSyncSet weight preset value = refuse s .busy := by
  rw [Part.requestSyncSet, if_neg (Nat.not_lt.mpr light), if_pos (by rw [testBit_zero_of_odd odd, taking]; rfl)]

theorem Part.requestSyncSet_preset {weight preset : Nat} (light : weight ≤ 255) (odd : preset % 2 = 1)
    (free : s.recorder.state.holdsCount = false) (value : Nat) : s.requestSyncSet weight preset value =
      done { s with sync := { s.sync with weight := weight, frameCount := BitVec.ofNat 32 value } } := by
  rw [Part.requestSyncSet, if_neg (Nat.not_lt.mpr light), if_neg (by rw [free]; simp), testBit_zero_of_odd odd,
    if_pos rfl]

theorem Part.requestSyncSet_weight {weight preset : Nat} (light : weight ≤ 255) (even : preset % 2 = 0)
    (value : Nat) : s.requestSyncSet weight preset value =
      done { s with sync := { s.sync with weight := weight } } := by
  rw [Part.requestSyncSet, if_neg (Nat.not_lt.mpr light), testBit_zero_of_even even,
    if_neg (by rw [Bool.false_and]; exact Bool.false_ne_true), if_neg Bool.false_ne_true]

end

/-- Settles O17, answer by answer. -/
theorem settingsResult : Obligations.SettingsResult := by
  unfold Obligations.SettingsResult
  refine ⟨fun tag period limit s room => ?_, fun tag weight preset value s room => ?_⟩
  · split
    · next run => exact exec_unchanged room rfl rfl rfl (Part.requestGatewaySet_run (s := s.part.reserving _ _) run period limit)
    split
    · next setup out => exact exec_unchanged room rfl rfl rfl (Part.requestGatewaySet_range (s := s.part.reserving _ _) setup out)
    · next setup inside => exact exec_answered room rfl rfl rfl (Part.requestGatewaySet_done (s := s.part.reserving _ _) setup inside) rfl rfl
  · refine ⟨fun heavy => ?_, fun light odd taking => ?_, fun light odd free => ?_, fun light even => ?_⟩
    · exact exec_unchanged room rfl rfl rfl (Part.requestSyncSet_range (s := s.part.reserving _ _) heavy preset value)
    · exact exec_unchanged room rfl rfl rfl
        (Part.requestSyncSet_busy (s := s.part.reserving _ _) light odd ((RecorderState.holdsCount_iff _).mpr taking) value)
    · exact exec_answered room rfl rfl rfl (Part.requestSyncSet_preset (s := s.part.reserving _ _) light odd
        (Bool.eq_false_iff.mpr fun h => free ((RecorderState.holdsCount_iff _).mp h)) value) rfl rfl
    · exact exec_answered room rfl rfl rfl (Part.requestSyncSet_weight (s := s.part.reserving _ _) light even value) rfl rfl

/-! ### Axis records -/

theorem flagOfCode_eq_some_iff {n : Nat} {b : Bool} : flagOfCode n = some b ↔ n ≤ 1 ∧ b = (n == 1) := by
  rcases n with _ | _ | n <;> simp [flagOfCode, eq_comm]

theorem AxisKind.ofCode_eq_some_iff {n : Nat} {k : AxisKind} : AxisKind.ofCode n = some k ↔ k.code = n := by
  rcases n with _ | _ | _ | n <;> cases k <;> simp [AxisKind.ofCode, AxisKind.code]

theorem ConfirmMode.ofCode_eq_some_iff {n : Nat} {m : ConfirmMode} : ConfirmMode.ofCode n = some m ↔ m.code = n := by
  rcases n with _ | _ | _ | n <;> cases m <;> simp [ConfirmMode.ofCode, ConfirmMode.code]

theorem AxisKind.exists_code_iff {n : Nat} : (∃ k : AxisKind, k.code = n) ↔ n ≤ 2 := by
  constructor
  · rintro ⟨k, rfl⟩
    cases k <;> simp [AxisKind.code]
  · intro least
    rcases n with _ | _ | _ | n
    · exact ⟨.linear, rfl⟩
    · exact ⟨.rotary, rfl⟩
    · exact ⟨.lens, rfl⟩
    · omega

theorem ConfirmMode.exists_code_iff {n : Nat} : (∃ m : ConfirmMode, m.code = n) ↔ n ≤ 2 := by
  constructor
  · rintro ⟨m, rfl⟩
    cases m <;> simp [ConfirmMode.code]
  · intro least
    rcases n with _ | _ | _ | n
    · exact ⟨.feedback, rfl⟩
    · exact ⟨.timer, rfl⟩
    · exact ⟨.either, rfl⟩
    · omega

/-- Section 3.1: the kinds that a slot allows, by their codes. -/
theorem kindAllowed_iff (c : Slot) (k : AxisKind) : kindAllowed c k = true ↔
    (8 ≤ c.val → k.code = 2) ∧ (c.val = 0 ∨ c.val = 3 → k.code = 0) ∧ (c.val = 7 → k.code ≤ 1) ∧
      (c.val = 1 ∨ c.val = 2 ∨ (4 ≤ c.val ∧ c.val ≤ 6) → k.code = 1) := by
  revert c
  cases k <;> decide

theorem windowEndAllowed_iff (c : Slot) (x : Int) : windowEndAllowed c x = true ↔
    (if c.val < 8 then -2147483648 else -8388607) ≤ x ∧ x ≤ (if c.val < 8 then 2147483647 else 8388607) := by
  unfold windowEndAllowed isMotion
  by_cases motion : c.val < 8
  · simp only [motion, decide_true, if_true, within_iff]
  · simp only [motion, decide_false, if_false, within_iff, Bool.false_eq_true]

/-- R34 step 2: an axis record that a channel slot accepts. -/
def AxisFields.Allowed (f : AxisFields) (c : Slot) : Prop :=
  f.present ≤ 1 ∧ f.brakePresent ≤ 1 ∧ f.confirm ≤ 2 ∧
  (8 ≤ c.val → f.kind = 2 ∧ f.brakePresent = 0) ∧ (c.val = 0 ∨ c.val = 3 → f.kind = 0) ∧
  (c.val = 7 → f.kind ≤ 1) ∧ (c.val = 1 ∨ c.val = 2 ∨ (4 ≤ c.val ∧ c.val ≤ 6) → f.kind = 1) ∧
  (if c.val < 8 then -2147483648 else -8388607) ≤ f.pmin ∧ f.pmin < f.pmax ∧
  f.pmax ≤ (if c.val < 8 then 2147483647 else 8388607) ∧
  1 ≤ f.vmax ∧ f.vmax ≤ 67108864 ∧ 1 ≤ f.amax ∧ f.amax ≤ f.astop ∧ f.astop ≤ 16777216 ∧
  f.following ≤ 16777216 ∧ 1 ≤ f.followCount ∧ f.followCount ≤ 16 ∧
  f.divergence ≤ 16777216 ∧ f.still ≤ 65535

/-- The record that the fields of an axis set spell. -/
def AxisFields.Spells (f : AxisFields) (a : AxisRecord) : Prop :=
  a.set = true ∧ a.present = (f.present == 1) ∧ a.kind.code = f.kind ∧
  a.brakePresent = (f.brakePresent == 1) ∧ a.confirm.code = f.confirm ∧
  a.pmin = f.pmin ∧ a.pmax = f.pmax ∧ a.vmax = f.vmax ∧ a.amax = f.amax ∧ a.astop = f.astop ∧
  a.following = f.following ∧ a.followCount = f.followCount ∧
  a.divergence = f.divergence ∧ a.still = f.still

/-- A record read from fields is allowed, and spelled by them. -/
theorem AxisFields.toRecord_eq_some {f : AxisFields} {c : Slot} {a : AxisRecord}
    (read : AxisFields.toRecord f c = some a) : AxisFields.Allowed f c ∧ AxisFields.Spells f a := by
  unfold AxisFields.toRecord at read
  split at read
  · next present kind brake confirm presence kinds brakes confirms =>
    obtain ⟨flag, rfl⟩ := flagOfCode_eq_some_iff.mp presence
    obtain ⟨flag', rfl⟩ := flagOfCode_eq_some_iff.mp brakes
    have kinds := AxisKind.ofCode_eq_some_iff.mp kinds
    have confirms := ConfirmMode.ofCode_eq_some_iff.mp confirms
    have confirmLeast := ConfirmMode.exists_code_iff.mp ⟨_, confirms⟩
    split at read
    · next ok =>
      cases read
      simp only [Bool.and_eq_true, Bool.or_eq_true, kindAllowed_iff, AxisFields.inRange, windowEndAllowed_iff,
        decide_eq_true_eq, isMotion, Bool.not_eq_true', beq_eq_false_iff_ne] at ok
      unfold AxisFields.Allowed AxisFields.Spells
      refine ⟨?_, rfl, rfl, kinds, rfl, confirms, rfl, rfl, rfl, rfl, rfl, rfl, rfl, rfl, rfl⟩
      omega
    · exact nomatch read
  · exact nomatch read

/-- An allowed record is read. -/
theorem AxisFields.exists_toRecord {f : AxisFields} {c : Slot} (allowed : AxisFields.Allowed f c) :
    ∃ a, AxisFields.toRecord f c = some a := by
  unfold AxisFields.Allowed at allowed
  have kindLeast : f.kind ≤ 2 := by have := c.isLt; omega
  obtain ⟨kind, kinds⟩ := AxisKind.exists_code_iff.mpr kindLeast
  obtain ⟨confirm, confirms⟩ := ConfirmMode.exists_code_iff.mpr allowed.2.2.1
  unfold AxisFields.toRecord
  rw [flagOfCode_eq_some_iff.mpr ⟨allowed.1, rfl⟩, flagOfCode_eq_some_iff.mpr ⟨allowed.2.1, rfl⟩,
    AxisKind.ofCode_eq_some_iff.mpr kinds, ConfirmMode.ofCode_eq_some_iff.mpr confirms]
  refine ⟨_, if_pos ?_⟩
  simp only [Bool.and_eq_true, Bool.or_eq_true, kindAllowed_iff, AxisFields.inRange, windowEndAllowed_iff,
    decide_eq_true_eq, isMotion, Bool.not_eq_true', beq_eq_false_iff_ne]
  omega

theorem AxisFields.toRecord_eq_none {f : AxisFields} {c : Slot} (out : ¬ AxisFields.Allowed f c) :
    AxisFields.toRecord f c = none :=
  Option.eq_none_iff_forall_not_mem.mpr fun _ read => out (AxisFields.toRecord_eq_some read).1

section
variable {s : Part} {c : Slot} {f : AxisFields} {a : AxisRecord}

theorem Part.requestAxisSet_channel (s : Part) (c : Slot) (f : AxisFields) :
    s.requestAxisSet c.val (.channel f) = s.axisSetChannel c f := dif_pos c.isLt

theorem Part.axisSetChannel_range (out : ¬ AxisFields.Allowed f c) : s.axisSetChannel c f = refuse s .range := by
  rw [Part.axisSetChannel, AxisFields.toRecord_eq_none out]

theorem Part.axisSetChannel_setup (read : AxisFields.toRecord f c = some a) (setup : s.lane.mode = .setup) :
    s.axisSetChannel c f = done (s.putAxis c a) := by
  rw [Part.axisSetChannel, read]
  dsimp only
  rw [setup]

theorem AxisRecord.asStrict_iff (new old : AxisRecord) : new.asStrict old = true ↔
    new.present = old.present ∧ new.kind = old.kind ∧ new.brakePresent = old.brakePresent ∧
    new.confirm = old.confirm ∧ new.still = old.still ∧ old.pmin ≤ new.pmin ∧ new.pmax ≤ old.pmax ∧
    new.vmax ≤ old.vmax ∧ new.amax ≤ old.amax ∧ old.astop ≤ new.astop ∧
    (old.following = 0 ∨ (new.following ≠ 0 ∧ new.following ≤ old.following)) ∧
    (old.divergence = 0 ∨ (new.divergence ≠ 0 ∧ new.divergence ≤ old.divergence)) ∧
    new.followCount ≤ old.followCount := by
  simp [AxisRecord.asStrict, limitAsStrict, and_assoc]

theorem AxisRecord.reachable_iff (a : AxisRecord) (ch : Channel) : a.reachable ch = true ↔
    (a.present = true → ch.InWindow (a.pmin * 65536, a.pmax * 65536) a.amax) := by
  cases present : a.present
  · simp [AxisRecord.reachable, present]
  · simp only [AxisRecord.reachable, present, Bool.not_true, Bool.false_or, Channel.reaches, Bool.and_eq_true,
      within_iff, fineWindow, Channel.InWindow, and_assoc, forall_const]

theorem Part.axisSetChannel_run (read : AxisFields.toRecord f c = some a) (run : s.lane.mode = .run) :
    s.axisSetChannel c f =
      if !a.asStrict s.shaper.axes[c] then refuse s .wrongMode
      else if a.reachable s.shaper.chans[c] then done (s.putAxis c a) else refuse s .unreachable := by
  rw [Part.axisSetChannel, read]
  dsimp only
  rw [run]

theorem Part.requestAxisSet_timing (s : Part) (t : TimingFields) :
    s.requestAxisSet 12 (.timing t) = s.axisSetTiming t := by
  rw [Part.requestAxisSet, if_pos rfl]

theorem Part.axisSetTiming_range {t : TimingFields} (out : TimingFields.toTiming t = none) :
    s.axisSetTiming t = refuse s .range := by
  rw [Part.axisSetTiming, out]

theorem Part.axisSetTiming_run {t : TimingFields} {u : StopTiming} (read : TimingFields.toTiming t = some u)
    (run : s.lane.mode = .run) : s.axisSetTiming t = refuse s .wrongMode := by
  simp only [Part.axisSetTiming, read, run]

theorem Part.axisSetTiming_setup {t : TimingFields} {u : StopTiming} (read : TimingFields.toTiming t = some u)
    (setup : s.lane.mode = .setup) :
    s.axisSetTiming t = done { s with shaper := { s.shaper with timing := u } } := by
  simp only [Part.axisSetTiming, read, setup]

theorem Part.requestAxisSet_beyond {target : Nat} (beyond : 12 < target) (record : AxisSetRecord) :
    s.requestAxisSet target record = refuse s .range := by
  cases record with
  | timing t => exact if_neg (by omega)
  | channel t => exact dif_neg (by omega)

end

/-- Settles O20: the fields that a record or a stop timing may have, and what an accepted one leaves. -/
theorem axisSetInSetup : Obligations.AxisSetInSetup := by
  unfold Obligations.AxisSetInSetup
  refine ⟨fun tag c f s room => ⟨fun out => ?_, fun ok setup => ?_⟩, fun tag f s room =>
    ⟨fun out => ?_, fun ok run => ?_, fun ok setup => ?_, fun target record beyond => ?_⟩⟩
  · exact exec_unchanged room rfl rfl rfl ((Part.requestAxisSet_channel _ c f).trans (Part.axisSetChannel_range out))
  · obtain ⟨a, read⟩ := AxisFields.exists_toRecord ok
    refine ⟨a, ?_, (AxisFields.toRecord_eq_some read).2⟩
    exact exec_answered room rfl rfl rfl ((Part.requestAxisSet_channel _ c f).trans
      (Part.axisSetChannel_setup (s := s.part.reserving _ _) read setup)) rfl rfl
  · exact exec_unchanged room rfl rfl rfl ((Part.requestAxisSet_timing _ f).trans
      (Part.axisSetTiming_range (if_neg out)))
  · exact exec_unchanged room rfl rfl rfl ((Part.requestAxisSet_timing _ f).trans
      (Part.axisSetTiming_run (s := s.part.reserving _ _) (if_pos ok) run))
  · exact exec_answered room rfl rfl rfl ((Part.requestAxisSet_timing _ f).trans
      (Part.axisSetTiming_setup (s := s.part.reserving _ _) (if_pos ok) setup)) rfl rfl
  · exact exec_unchanged room rfl rfl rfl (Part.requestAxisSet_beyond (s := s.part.reserving _ _) beyond record)

/-- Settles O21: the comparisons of R35 and the reach check of R36, each spelled out. -/
theorem axisSetInRunOnlyTightens : Obligations.AxisSetInRunOnlyTightens := by
  unfold Obligations.AxisSetInRunOnlyTightens
  intro tag c f a s room run read
  have judged : (s.part.reserving 0x10#8 tag).requestAxisSet c.val (.channel f) = _ :=
    (Part.requestAxisSet_channel _ c f).trans (Part.axisSetChannel_run (s := s.part.reserving _ _) read run)
  refine ⟨fun loose => ?_, fun strict far => ?_, fun strict near => ?_⟩
  · refine exec_unchanged room rfl rfl rfl (judged.trans (if_pos ?_))
    rw [Bool.not_eq_true', Bool.eq_false_iff]
    exact fun strict => loose ((AxisRecord.asStrict_iff _ _).mp strict)
  all_goals
    have strict := (AxisRecord.asStrict_iff _ _).mpr strict
    have judged := judged.trans (if_neg (by
      rw [Bool.not_eq_true', Bool.eq_false_iff]
      exact fun loose => loose strict))
  · refine exec_unchanged room rfl rfl rfl (judged.trans (if_neg ?_))
    exact fun near => far ((AxisRecord.reachable_iff _ _).mp near)
  · exact exec_answered room rfl rfl rfl (judged.trans (if_pos ((AxisRecord.reachable_iff _ _).mpr near))) rfl rfl

end Sys2Proof.Machine
end

section
/-! SETTLED. The part mode: what refuses a change, and what the changes to Run and to Setup leave. -/

namespace Sys2Proof.Machine

section
variable {s : Part}

theorem PartMode.ofCode_eq_some_iff {n : Nat} {m : PartMode} : PartMode.ofCode n = some m ↔ m.code = n := by
  rcases n with _ | _ | n <;> cases m <;> simp [PartMode.ofCode, PartMode.code]

theorem PartMode.ofCode_eq_none {n : Nat} (beyond : 1 < n) : PartMode.ofCode n = none := by
  rcases n with _ | _ | n
  · omega
  · omega
  · rfl

theorem Part.requestMode_range {want : Nat} (beyond : 1 < want) : s.requestMode want = refuse s .range := by
  rw [Part.requestMode, PartMode.ofCode_eq_none beyond]

theorem Part.requestMode_busy (scanning : s.array.scanComplete = false) : s.requestMode 1 = refuse s .busy :=
  if_pos ⟨rfl, by rw [TakeArray.scanning, scanning]; rfl⟩

theorem Part.requestMode_same (complete : s.lane.mode.code = 1 → s.array.scanComplete = true) :
    s.requestMode s.lane.mode.code = done s := by
  rw [Part.requestMode, PartMode.ofCode_eq_some_iff.mpr rfl]
  dsimp only
  rw [if_neg, if_pos rfl]
  rintro ⟨run, scanning⟩
  rw [TakeArray.scanning, complete (by rw [run]; rfl)] at scanning
  exact nomatch scanning

theorem Part.requestMode_setup (run : s.lane.mode = .run) : s.requestMode 0 =
    if s.seq.state = .safeOff then done s.enterSetup else refuse s .wrongState := by
  have other : ¬ PartMode.setup = s.lane.mode := by rw [run]; exact PartMode.noConfusion
  rw [Part.requestMode, PartMode.ofCode_eq_some_iff.mpr (show PartMode.setup.code = 0 from rfl)]
  dsimp only
  rw [if_neg (fun h => PartMode.noConfusion h.1), if_neg other]

theorem Part.requestMode_run (setup : s.lane.mode = .setup) (complete : s.array.scanComplete = true) :
    s.requestMode 1 = if s.runAllowed then done s.enterRun else refuse s .blocked := by
  have other : ¬ PartMode.run = s.lane.mode := by rw [setup]; exact PartMode.noConfusion
  rw [Part.requestMode, PartMode.ofCode_eq_some_iff.mpr (show PartMode.run.code = 1 from rfl)]
  dsimp only
  rw [if_neg, if_neg other]
  rw [TakeArray.scanning, complete]
  exact fun h => nomatch h.2

/-- R29: the conditions of Run. -/
theorem Part.runAllowed_iff (s : Part) : s.runAllowed = true ↔
    (∃ a : Axis, s.shaper.axes[Axis.slot a].present = true) ∧
      ∀ c : Slot, s.shaper.axes[c].present = true →
        s.shaper.axes[c].set = true ∧ s.gateway.feedback[c].stale = false ∧
        s.shaper.axes[c].pmin ≤ s.gateway.feedback[c].actual ∧
        s.gateway.feedback[c].actual ≤ s.shaper.axes[c].pmax := by
  have axis : (!s.shaper.motion.isEmpty) = true ↔ ∃ a : Axis, s.shaper.axes[Axis.slot a].present = true := by
    simp [Shaper.motion, allAxes, List.filter_eq_nil_iff]
  have each (c : Slot) : (s.shaper.axes[c].present = true →
        s.shaper.axes[c].set = true ∧ s.gateway.feedback[c].stale = false ∧
        s.shaper.axes[c].pmin ≤ s.gateway.feedback[c].actual ∧
        s.gateway.feedback[c].actual ≤ s.shaper.axes[c].pmax) ↔
      (!s.shaper.axes[c].present || s.shaper.axes[c].set) = true ∧
      (!s.shaper.axes[c].present || (!s.gateway.feedback[c].stale &&
        within s.gateway.feedback[c].actual s.shaper.axes[c].pmin s.shaper.axes[c].pmax)) = true := by
    cases s.shaper.axes[c].present <;> simp [within_iff]
  rw [Part.runAllowed, Shaper.tableValid, Bool.and_eq_true, Bool.and_eq_true, axis, and_assoc]
  refine and_congr_right fun _ => ?_
  simp only [List.all_eq_true, allSlots, List.mem_finRange, true_implies, each]
  exact forall_and.symm

end

/-- R118: the last demand of a lens channel in a mode other than Off. -/
theorem LensChannel.setLastDemand_driven {c : LensChannel} (driven : c.mode ≠ .off) (count : Int) :
    c.setLastDemand count = { c with
      lastDemand := if c.mode = .direct then count else reverseMap (c.pending.getD c.active) count } := by
  unfold LensChannel.setLastDemand LensChannel.coming
  split
  · next off => exact absurd off driven
  all_goals next mode => simp only [mode, reduceCtorEq, if_true, if_false]

theorem Part.drivenLens_iff (s : Part) (l : LensIx) :
    s.drivenLens l = true ↔ s.shaper.axes[LensIx.slot l].present = true ∧ s.lens.chans[l].mode ≠ .off := by
  rw [Part.drivenLens, Bool.and_eq_true, decide_eq_true_iff]

/-- What the change to Run leaves of a lens channel's record. -/
theorem Part.enterRun_lensRecord (s : Part) (l : LensIx) : s.enterRun.lens.chans[l] =
    s.runLens l s.enterRun.shaper.chans[LensIx.slot l].p := by
  simp [Part.enterRun]

/-- Settles O18, answer by answer. -/
theorem modeRunResult : Obligations.ModeRunResult := by
  unfold Obligations.ModeRunResult
  refine ⟨fun tag want s room => ⟨fun beyond => ?_, fun one scanning => ?_, fun same complete => ?_,
    fun zero run moving => ?_⟩, fun tag s room setup complete => ⟨fun bad => ?_, fun ok => ?_⟩⟩
  · exact exec_unchanged room rfl rfl rfl (Part.requestMode_range beyond)
  · subst one
    exact exec_unchanged room rfl rfl rfl (Part.requestMode_busy (s := s.part.reserving _ _) scanning)
  · subst same
    exact exec_unchanged room rfl rfl rfl (Part.requestMode_same (s := s.part.reserving _ _) complete)
  · subst zero
    exact exec_unchanged room rfl rfl rfl
      ((Part.requestMode_setup (s := s.part.reserving _ _) run).trans (if_neg moving))
  · exact exec_unchanged room rfl rfl rfl ((Part.requestMode_run (s := s.part.reserving _ _) setup complete).trans
      (if_neg fun allowed => bad ((Part.runAllowed_iff (s.part.reserving _ _)).mp allowed)))
  · refine ⟨s.part.enterRun.shaper.chans, s.part.enterRun.lens.chans, ?_, s.part.enterRun_motion, fun l => ?_⟩
    · exact exec_answered room rfl rfl rfl ((Part.requestMode_run (s := s.part.reserving _ _) setup complete).trans
        (if_pos ((Part.runAllowed_iff (s.part.reserving _ _)).mpr ok))) rfl rfl
    · dsimp only
      rw [s.part.enterRun_lensRecord, s.part.enterRun_lensChan, Part.runLens]
      split
      · next driven =>
        have drives := (s.part.drivenLens_iff l).mpr driven
        rw [if_pos drives, if_pos drives, LensChannel.setLastDemand_driven driven.2]
        exact ⟨rfl, rfl⟩
      · next undriven =>
        have idle := mt (s.part.drivenLens_iff l).mp undriven
        rw [if_neg idle, if_neg idle]
        exact ⟨rfl, rfl⟩

/-- R31 for one entry, by its owner. -/
theorem Player.setupCue_eq (p : Player) (i : CueIx) : p.setupCue i =
    if p.cues[i].owner = .controller then p.cues[i]
    else { p.cues[i] with
      owner := .controller, status := if i = p.pointer ∧ p.state.inHand then .aborted else .notRun } := by
  unfold Player.setupCue
  generalize p.cues[i] = cue
  cases owner : cue.owner <;> simp [owner]

theorem Part.enterSetup_cue (s : Part) (i : CueIx) : s.enterSetup.player.cues[i] = s.player.setupCue i := by
  simp [Part.enterSetup, Part.returnAllCues, Part.dropReads, Player.setupCue]
  rfl

/-- Settles O19: the channels on Track, then the cues and the player as `returnAllCues` leaves them. -/
theorem modeSetupResult : Obligations.ModeSetupResult := by
  unfold Obligations.ModeSetupResult
  intro tag s room run off
  have setup := (Part.requestMode_setup (s := s.part.reserving 0x02#8 tag) run).trans (if_pos off)
  refine ⟨(s.part.shaper.mapChans fun _ ch => ch.withSource .track).chans, s.part.enterSetup.player, ?_, fun c => ?_,
    rfl, rfl, rfl, fun i => ?_⟩
  · exact exec_answered room rfl rfl rfl setup rfl rfl
  · exact Shaper.mapChans_get _ _ _
  · exact (s.part.enterSetup_cue i).trans (Player.setupCue_eq _ i)

end Sys2Proof.Machine
end

section
/-! SETTLED. Geometry and zones: what the table requests refuse and leave, the sines, and the rounding. -/

namespace Sys2Proof.Machine

/-! ### The hit masks and the speed scale -/

theorem zoneIxOf_val (i : ZoneIx) : zoneIxOf i.val = some i := dif_pos i.isLt

theorem zoneIxOf_eq_some {n : Nat} {i : ZoneIx} (index : n = i.val) : zoneIxOf n = some i := index ▸ zoneIxOf_val i

theorem zoneIxOf_eq_none {n : Nat} (beyond : 16 ≤ n) : zoneIxOf n = none := dif_neg (by omega)

theorem ZoneMonitor.hits_getLsbD (z : ZoneMonitor) (p : Point) (i : ZoneIx) :
    (z.hits p).getLsbD i.val = z.zones[i].hitBy p := by
  rw [ZoneMonitor.hits, BitVec.getLsbD_ofNat, bitsOf_testBit]
  simp

theorem ZoneMonitor.hits_iff (z : ZoneMonitor) (p : Point) (i : ZoneIx) :
    (z.hits p).getLsbD i.val = true ↔ z.zones[i].Hits p := by
  rw [ZoneMonitor.hits_getLsbD, ZoneEntry.hitBy_iff_hits]

theorem Part.reevaluate_masksAgree (s : Part) : s.reevaluate.MasksAgree := by
  refine ⟨?_, ?_, s.zone.remask.speedScale_worksOut⟩ <;> dsimp only [Part.reevaluate, ZoneMonitor.remask]
  · exact s.zone.hits_iff s.zone.currentTip
  · exact s.zone.hits_iff s.zone.stopTip

theorem Part.putZone_masksAgree (s : Part) (i : ZoneIx) (z : ZoneEntry) : (s.putZone i z).MasksAgree :=
  Part.reevaluate_masksAgree _

theorem Part.putZone_eq (s : Part) (i : ZoneIx) (z : ZoneEntry) : s.putZone i z = s.withZone i z
    (s.putZone i z).zone.currentHits (s.putZone i z).zone.stopHits (s.putZone i z).shaper.sigma := rfl

/-- An accepted zone request: the entry replaced, the masks and the scale in agreement. -/
theorem exec_putZone {i : Instr} {k : Byte} {run : Nat → Part → Served} {s : State} {n : ZoneIx} {z : ZoneEntry}
    (room : s.part.Room) (kind : kindOf i = some k) (owner : ownerOf i = some run)
    (other : Instr.isRestart i = false)
    (accepted : run s.part.lane.nextTicket (s.part.reserving k (tagOf i)) =
      done ((s.part.reserving k (tagOf i)).putZone n z)) :
    ∃ (current stop : BitVec 16) (sigma : Nat),
      exec i s = .next { s with part := ((s.part.withZone n z current stop sigma).pushDone k (tagOf i)) } ∧
      (s.part.withZone n z current stop sigma).MasksAgree := by
  refine ⟨_, _, _, ?_, (s.part.putZone_eq n z) ▸ s.part.putZone_masksAgree n z⟩
  exact exec_answered room kind owner other accepted rfl rfl

/-! ### Geometry Set and Zone Clear -/

section
variable {s : Part}

theorem GeometryFields.inRange_iff (g : GeometryFields) : GeometryFields.inRange g = true ↔
    g.lb ≤ 16777216 ∧ -268435455 ≤ g.x0 ∧ g.x0 ≤ 268435455 ∧
      -268435455 ≤ g.y0 ∧ g.y0 ≤ 268435455 ∧ -268435455 ≤ g.z0 ∧ g.z0 ≤ 268435455 := by
  simp only [GeometryFields.inRange, Bool.and_eq_true, decide_eq_true_iff, within_iff, stageLimit, and_assoc]

theorem Part.requestGeometrySet_run (run : s.lane.mode = .run) (g : GeometryFields) :
    s.requestGeometrySet g = refuse s .wrongMode := if_pos run

theorem Part.requestGeometrySet_setup (setup : s.lane.mode = .setup) (g : GeometryFields) :
    s.requestGeometrySet g = if GeometryFields.inRange g then
      done { s with zone := { s.zone with geometry := ⟨g.lb, g.x0, g.y0, g.z0, g.swing, g.lift⟩ } }
      else refuse s .range := by
  rw [Part.requestGeometrySet, if_neg]
  rw [setup]
  exact PartMode.noConfusion

theorem Part.requestZoneClear_range {n : Nat} (beyond : 16 ≤ n) : s.requestZoneClear n = refuse s .range := by
  rw [Part.requestZoneClear, zoneIxOf_eq_none beyond]

theorem Part.requestZoneClear_run (run : s.lane.mode = .run) (i : ZoneIx) :
    s.requestZoneClear i.val = refuse s .wrongMode := by
  rw [Part.requestZoneClear, zoneIxOf_val]
  exact if_pos run

theorem Part.requestZoneClear_setup (setup : s.lane.mode = .setup) (i : ZoneIx) :
    s.requestZoneClear i.val = done (s.putZone i ZoneEntry.reset) := by
  rw [Part.requestZoneClear, zoneIxOf_val]
  refine if_neg ?_
  rw [setup]
  exact PartMode.noConfusion

end

/-! ### The table of sines -/

theorem sineEntry_listed : ([(0, 0), (256, 25080), (427, 39922), (428, 40002), (512, 46341), (596, 51911), (597, 51973),
    (768, 60547), (1024, 65536)].all fun e : Nat × Nat => sineEntry e.1 == e.2) = true := by decide +kernel

theorem sineEntry_rises : ∀ i : Nat, i < 1024 → sineEntry i ≤ sineEntry (i + 1) := by
  have all : ∀ i : Fin 1024, sineEntry i.val ≤ sineEntry (i.val + 1) := by decide +kernel
  exact fun i lt => all ⟨i, lt⟩

theorem sineEntry_circle : ∀ i : Nat, i ≤ 1024 →
    ((sineEntry i ^ 2 + sineEntry (1024 - i) ^ 2 : Nat) - 2 ^ 32 : Int).natAbs ≤ 92682 := by
  have all : ∀ i : Fin 1025,
      ((sineEntry i.val ^ 2 + sineEntry (1024 - i.val) ^ 2 : Nat) - 2 ^ 32 : Int).natAbs ≤ 92682 := by decide +kernel
  exact fun i le => all ⟨i, Nat.lt_succ_of_le le⟩

/-- R58 steps 3 to 5, up to the end of the quarter turn. -/
theorem sineQuarter_eq {u : Nat} (least : u ≤ 262144) : sineQuarter u =
    if u / 256 = 1024 then sineEntry 1024
    else sineEntry (u / 256) + ((sineEntry (u / 256 + 1) - sineEntry (u / 256)) * (u % 256) + 128) / 256 := by
  have edge : u / 256 ≥ 1024 ↔ u / 256 = 1024 := by omega
  simp only [sineQuarter, edge]

theorem sine_eq (a : Int) :
    let r := (a % 1048576).toNat
    let q := r / 262144
    let u := if q = 0 ∨ q = 2 then r % 262144 else 262144 - r % 262144
    sine a = if 2 ≤ q then -(sineQuarter u : Int) else sineQuarter u := by
  have below : (a % 1048576).toNat / 262144 < 4 := by omega
  have half : (a % 1048576).toNat / 262144 = 2 ∨ (a % 1048576).toNat / 262144 = 3 ↔
    2 ≤ (a % 1048576).toNat / 262144 := by omega
  simp only [sine, half]

/-! ### Rounding -/

/-- Section 5.3: the rounding of a magnitude. -/
theorem round_half_up {m d : Nat} (pos : 0 < d) :
    let k := (2 * m + d) / (2 * d)
    2 * k * d ≤ 2 * m + d ∧ 2 * m < 2 * k * d + d := by
  intro k
  have parts := Nat.div_add_mod (2 * m + d) (2 * d)
  have rest := Nat.mod_lt (2 * m + d) (show 0 < 2 * d by omega)
  have same : 2 * d * ((2 * m + d) / (2 * d)) = 2 * k * d := by grind
  omega

theorem divRound_roundsTo {n d : Int} (pos : 0 < d) : RoundsTo n d (divRound n d) := by
  obtain ⟨e, rfl⟩ := Int.eq_ofNat_of_zero_le (Int.le_of_lt pos)
  have pos : 0 < e := by omega
  obtain ⟨low, high⟩ := round_half_up (m := n.natAbs) pos
  have product : divRound n e * e = n.sign * (((2 * n.natAbs + e) / (2 * e) * e : Nat) : Int) := by
    have unit : Int.sign e = 1 := Int.sign_eq_one_of_pos (by omega)
    rw [divRound, unit, Int.natAbs_natCast]
    grind
  unfold RoundsTo
  rw [product, Int.natAbs_natCast]
  generalize (2 * n.natAbs + e) / (2 * e) = k at low high ⊢
  rw [Nat.mul_assoc] at low high
  generalize k * e = x at low high ⊢
  rcases Int.lt_trichotomy n 0 with neg | rfl | positive
  · rw [Int.sign_eq_neg_one_of_neg neg]
    omega
  · simp only [Int.sign_zero, Int.zero_mul]
    omega
  · rw [Int.sign_eq_one_of_pos positive]
    omega

/-- Settles O24: the two requests answer by answer, the table by evaluation, the sine by its steps. -/
theorem geometryAndZoneClear : Obligations.GeometryAndZoneClear := by
  unfold Obligations.GeometryAndZoneClear
  refine ⟨fun tag g s room => ⟨fun run => ?_, fun setup out => ?_, fun setup ok => ?_⟩, fun tag s room =>
    ⟨fun n beyond => ?_, fun i run => ?_, fun i setup => ?_⟩, sineEntry_listed, sineEntry_rises, sineEntry_circle,
    fun a => ⟨?_, rfl⟩, fun n d pos => divRound_roundsTo pos⟩
  · exact exec_unchanged room rfl rfl rfl (Part.requestGeometrySet_run (s := s.part.reserving _ _) run g)
  · exact exec_unchanged room rfl rfl rfl ((Part.requestGeometrySet_setup (s := s.part.reserving _ _) setup g).trans
      (if_neg (mt (GeometryFields.inRange_iff g).mp out)))
  · exact exec_answered room rfl rfl rfl ((Part.requestGeometrySet_setup (s := s.part.reserving _ _) setup g).trans
      (if_pos ((GeometryFields.inRange_iff g).mpr ok))) rfl rfl
  · exact exec_unchanged room rfl rfl rfl (Part.requestZoneClear_range (s := s.part.reserving _ _) beyond)
  · exact exec_unchanged room rfl rfl rfl (Part.requestZoneClear_run (s := s.part.reserving _ _) run i)
  · exact exec_putZone room rfl rfl rfl (Part.requestZoneClear_setup (s := s.part.reserving _ _) setup i)
  · rw [sine_eq]
    have least : (if (a % 1048576).toNat / 262144 = 0 ∨ (a % 1048576).toNat / 262144 = 2
        then (a % 1048576).toNat % 262144 else 262144 - (a % 1048576).toNat % 262144) ≤ 262144 := by
      split <;> omega
    simp only [sineQuarter_eq least]

end Sys2Proof.Machine
end

section
/-! SETTLED. The zone table: what Zone Set and Live Zone Update refuse, and the entry they leave. -/

namespace Sys2Proof.Machine

/-! ### The entry that the fields spell -/

theorem ZoneState.ofCode_eq_some_iff {n : Nat} {z : ZoneState} : ZoneState.ofCode n = some z ↔ z.code = n := by
  rcases n with _ | _ | _ | n <;> cases z <;> simp [ZoneState.ofCode, ZoneState.code]

theorem ZoneKind.ofCode_eq_some_iff {n : Nat} {z : ZoneKind} : ZoneKind.ofCode n = some z ↔ z.code = n := by
  rcases n with _ | _ | _ | n <;> cases z <;> simp [ZoneKind.ofCode, ZoneKind.code]

theorem Category.ofCode_eq_some_iff {n : Nat} {c : Category} : Category.ofCode n = some c ↔ c.code = n := by
  rcases n with _ | _ | _ | n <;> cases c <;> simp [Category.ofCode, Category.code]

theorem ZoneKind.exists_code_iff {n : Nat} : (∃ z : ZoneKind, z.code = n) ↔ n ≤ 2 := by
  constructor
  · rintro ⟨z, rfl⟩
    cases z <;> simp [ZoneKind.code]
  · intro least
    obtain rfl | rfl | rfl : n = 0 ∨ n = 1 ∨ n = 2 := by omega
    · exact ⟨.keepOut, rfl⟩
    · exact ⟨.keepIn, rfl⟩
    · exact ⟨.slow, rfl⟩

theorem Category.exists_code_iff {n : Nat} : (∃ c : Category, c.code = n) ↔ n ≤ 2 := by
  constructor
  · rintro ⟨c, rfl⟩
    cases c <;> simp [Category.code]
  · intro least
    obtain rfl | rfl | rfl : n = 0 ∨ n = 1 ∨ n = 2 := by omega
    · exact ⟨.hold, rfl⟩
    · exact ⟨.ramp, rfl⟩
    · exact ⟨.hard, rfl⟩

theorem ZoneKind.code_eq_two_iff (k : ZoneKind) : k.code = 2 ↔ k = .slow := by cases k <;> decide

theorem ZoneKind.code_eq_one_iff (k : ZoneKind) : k.code = 1 ↔ k = .keepIn := by cases k <;> decide

theorem ZoneState.code_eq_two_iff (z : ZoneState) : z.code = 2 ↔ z = .live := by cases z <;> decide

/-- R62 step 2: the ranges of a zone entry's fields. -/
def ZoneFields.Allowed (f : ZoneFields) : Prop :=
  (f.state = 1 ∨ f.state = 2) ∧ f.kind ≤ 2 ∧ f.margin ≤ 1048576 ∧ (f.kind ≠ 2 → f.response ≤ 2) ∧
  (f.kind = 2 → 256 ≤ f.scale ∧ f.scale ≤ 4095) ∧
  (f.state = 2 → 1 ≤ f.refresh ∧ f.refresh ≤ 65535 ∧ f.growth ≤ 65535)

/-- R62, R65: the entry that the fields of a zone set spell. -/
def ZoneFields.Spells (f : ZoneFields) (z : ZoneEntry) : Prop :=
  z.state.code = f.state ∧ z.kind.code = f.kind ∧ z.box = Box.clamped f.box ∧ z.effective = Box.clamped f.box ∧
  z.age = 0 ∧ z.margin = f.margin ∧ (f.kind ≠ 2 → z.response.code = f.response) ∧
  (f.kind = 2 → z.scale = f.scale) ∧ z.refresh = (if f.state = 2 then f.refresh else 1) ∧
  z.growth = (if f.state = 2 then f.growth else 0)

section
variable {f : ZoneFields}

theorem ZoneFields.readResponse_eq_some {kind : ZoneKind} {c : Category} (kinds : kind.code = f.kind)
    (read : ZoneFields.readResponse f kind = some c) : f.kind ≠ 2 → f.response ≤ 2 ∧ c.code = f.response := by
  rw [← kinds]
  cases kind
  case slow => exact fun other => absurd rfl other
  all_goals
    have same := Category.ofCode_eq_some_iff.mp read
    exact fun _ => ⟨Category.exists_code_iff.mp ⟨c, same⟩, same⟩

theorem ZoneFields.exists_readResponse {kind : ZoneKind} (kinds : kind.code = f.kind)
    (least : f.kind ≠ 2 → f.response ≤ 2) : ∃ c, ZoneFields.readResponse f kind = some c := by
  rw [← kinds] at least
  cases kind
  case slow => exact ⟨.hold, rfl⟩
  all_goals
    obtain ⟨c, same⟩ := Category.exists_code_iff.mpr (least (by decide))
    exact ⟨c, Category.ofCode_eq_some_iff.mpr same⟩

theorem ZoneFields.readScale_eq_some {kind : ZoneKind} {n : Nat} (kinds : kind.code = f.kind)
    (read : ZoneFields.readScale f kind = some n) : f.kind = 2 → (256 ≤ f.scale ∧ f.scale ≤ 4095) ∧ n = f.scale := by
  rw [← kinds]
  cases kind
  case slow =>
    obtain ⟨range, same⟩ := Option.ite_none_right_eq_some.mp read
    exact fun _ => ⟨range, (Option.some.inj same).symm⟩
  all_goals exact nofun

theorem ZoneFields.exists_readScale {kind : ZoneKind} (kinds : kind.code = f.kind)
    (range : f.kind = 2 → 256 ≤ f.scale ∧ f.scale ≤ 4095) : ∃ n, ZoneFields.readScale f kind = some n := by
  rw [← kinds] at range
  cases kind
  case slow => exact ⟨f.scale, if_pos (range rfl)⟩
  all_goals exact ⟨4095, rfl⟩

theorem ZoneFields.readAgeing_eq_some {state : ZoneState} {ageing : Nat × Nat} (states : state.code = f.state)
    (read : ZoneFields.readAgeing f state = some ageing) : (f.state = 1 ∨ f.state = 2) ∧
      (f.state = 2 → 1 ≤ f.refresh ∧ f.refresh ≤ 65535 ∧ f.growth ≤ 65535) ∧
      ageing = (if f.state = 2 then f.refresh else 1, if f.state = 2 then f.growth else 0) := by
  rw [← states]
  cases state
  case unused => exact nomatch read
  case static => exact ⟨.inl rfl, nofun, (Option.some.inj read).symm⟩
  case live =>
    obtain ⟨range, same⟩ := Option.ite_none_right_eq_some.mp read
    exact ⟨.inr rfl, fun _ => range, (Option.some.inj same).symm⟩

theorem ZoneFields.exists_readAgeing {state : ZoneState} (states : state.code = f.state)
    (used : f.state = 1 ∨ f.state = 2)
    (range : f.state = 2 → 1 ≤ f.refresh ∧ f.refresh ≤ 65535 ∧ f.growth ≤ 65535) :
    ∃ ageing, ZoneFields.readAgeing f state = some ageing := by
  rw [← states] at used range
  cases state
  case unused => exact absurd used (by decide)
  case static => exact ⟨(1, 0), rfl⟩
  case live => exact ⟨(f.refresh, f.growth), if_pos (range rfl)⟩

theorem ZoneFields.toEntry_eq_some {z : ZoneEntry} (read : ZoneFields.toEntry f = some z) :
    ZoneFields.Allowed f ∧ ZoneFields.Spells f z := by
  unfold ZoneFields.toEntry at read
  split at read
  case h_2 => exact nomatch read
  next state kind states kinds =>
  have states := ZoneState.ofCode_eq_some_iff.mp states
  have kinds := ZoneKind.ofCode_eq_some_iff.mp kinds
  split at read
  case h_2 => exact nomatch read
  next response scale ageing responses scales ageings =>
  obtain ⟨margin, same⟩ := Option.ite_none_right_eq_some.mp read
  cases same
  have response := ZoneFields.readResponse_eq_some kinds responses
  have scale := ZoneFields.readScale_eq_some kinds scales
  obtain ⟨used, range, rfl⟩ := ZoneFields.readAgeing_eq_some states ageings
  exact ⟨⟨used, ZoneKind.exists_code_iff.mp ⟨kind, kinds⟩, margin, fun other => (response other).1,
      fun slow => (scale slow).1, range⟩,
    ⟨states, kinds, rfl, rfl, rfl, rfl, fun other => (response other).2, fun slow => (scale slow).2, rfl, rfl⟩⟩

theorem ZoneFields.exists_toEntry (allowed : ZoneFields.Allowed f) : ∃ z, ZoneFields.toEntry f = some z := by
  obtain ⟨used, kindLeast, margin, responses, scales, ageings⟩ := allowed
  obtain ⟨kind, kinds⟩ := ZoneKind.exists_code_iff.mpr kindLeast
  obtain ⟨state, states⟩ : ∃ state : ZoneState, state.code = f.state := by
    rcases used with used | used
    · exact ⟨.static, used.symm⟩
    · exact ⟨.live, used.symm⟩
  obtain ⟨response, response'⟩ := ZoneFields.exists_readResponse kinds responses
  obtain ⟨scale, scale'⟩ := ZoneFields.exists_readScale kinds scales
  obtain ⟨ageing, ageing'⟩ := ZoneFields.exists_readAgeing states used ageings
  unfold ZoneFields.toEntry
  rw [ZoneState.ofCode_eq_some_iff.mpr states, ZoneKind.ofCode_eq_some_iff.mpr kinds]
  dsimp only
  rw [response', scale', ageing']
  exact ⟨_, if_pos margin⟩

theorem ZoneFields.toEntry_eq_none (out : ¬ ZoneFields.Allowed f) : ZoneFields.toEntry f = none :=
  Option.eq_none_iff_forall_not_mem.mpr fun _ read => out (ZoneFields.toEntry_eq_some read).1

end

theorem Box.ordered_iff (b : Box) :
    Box.ordered b = true ↔ b.xmin ≤ b.xmax ∧ b.ymin ≤ b.ymax ∧ b.zmin ≤ b.zmax := by
  simp only [Box.ordered, Bool.and_eq_true, decide_eq_true_iff, and_assoc]

/-- R62 step 4, by the fields. -/
theorem ZoneFields.Spells.inconsistent_iff {f : ZoneFields} {z : ZoneEntry} (spells : ZoneFields.Spells f z) :
    z.inconsistent = false ↔ (Box.clamped f.box).xmin ≤ (Box.clamped f.box).xmax ∧
      (Box.clamped f.box).ymin ≤ (Box.clamped f.box).ymax ∧ (Box.clamped f.box).zmin ≤ (Box.clamped f.box).zmax ∧
      ¬ (f.state = 2 ∧ f.kind = 1) := by
  obtain ⟨states, kinds, box, -⟩ := spells
  rw [ZoneEntry.inconsistent, Bool.or_eq_false_iff, Bool.not_eq_false', Box.ordered_iff, box, ← states, ← kinds,
    ZoneState.code_eq_two_iff, ZoneKind.code_eq_one_iff, ← Bool.not_eq_true, Bool.and_eq_true, decide_eq_true_iff,
    decide_eq_true_iff, and_assoc, and_assoc]

/-! ### The answers of Zone Set -/

section
variable {s : Part} {f : ZoneFields} {i : ZoneIx} {z : ZoneEntry}

theorem Part.requestZoneSet_range (out : ¬ (f.index < 16 ∧ ZoneFields.Allowed f)) :
    s.requestZoneSet f = refuse s .range := by
  unfold Part.requestZoneSet
  by_cases index : f.index < 16
  · rw [ZoneFields.toEntry_eq_none fun allowed => out ⟨index, allowed⟩]
    split
    · next read => exact nomatch read
    · rfl
  · rw [zoneIxOf_eq_none (Nat.le_of_not_lt index)]

theorem Part.requestZoneSet_read (index : f.index = i.val) (read : ZoneFields.toEntry f = some z) :
    s.requestZoneSet f = if z.inconsistent then refuse s .invalid else s.judgeZone i z := by
  unfold Part.requestZoneSet
  rw [zoneIxOf_eq_some index, read]

theorem Part.judgeZone_setup (setup : s.lane.mode = .setup) : s.judgeZone i z = done (s.putZone i z) := by
  unfold Part.judgeZone
  rw [setup]

theorem Part.judgeZone_run (run : s.lane.mode = .run) : s.judgeZone i z =
    if !z.asStrict s.zone.zones[i] then refuse s .wrongMode
    else if s.zone.barredBy z then refuse s .unreachable else done (s.putZone i z) := by
  unfold Part.judgeZone
  rw [run]

end

/-- Settles O25: the fields in their ranges, the consistent entry, and the table with it. -/
theorem zoneSetInSetup : Obligations.ZoneSetInSetup := by
  unfold Obligations.ZoneSetInSetup
  intro tag f s room
  refine ⟨fun out => ?_, fun ok bad => ?_, fun ok good setup => ?_⟩
  · exact exec_unchanged room rfl rfl rfl (Part.requestZoneSet_range (s := s.part.reserving _ _) out)
  all_goals
    obtain ⟨index, allowed⟩ := ok
    obtain ⟨z, read⟩ := ZoneFields.exists_toEntry allowed
    obtain ⟨-, spells⟩ := ZoneFields.toEntry_eq_some read
    have judged := Part.requestZoneSet_read (s := s.part.reserving 0x21#8 tag) (i := ⟨f.index, index⟩) rfl read
  · refine exec_unchanged room rfl rfl rfl (judged.trans (if_pos ?_))
    rw [← Bool.not_eq_false]
    exact mt spells.inconsistent_iff.mp bad
  · have consistent : ¬ z.inconsistent = true := Bool.not_eq_true _ ▸ spells.inconsistent_iff.mpr good
    obtain ⟨current, stop, sigma, left, agree⟩ := exec_putZone (i := .zoneSet tag f) room rfl rfl rfl
      (judged.trans ((if_neg consistent).trans (Part.judgeZone_setup (s := s.part.reserving _ _) setup)))
    exact ⟨⟨f.index, index⟩, z, current, stop, sigma, left, agree, rfl, spells⟩

/-! ### As strict, and barred -/

theorem Box.contains_iff (a b : Box) : Box.contains a b = true ↔
    a.xmin ≤ b.xmin ∧ b.xmax ≤ a.xmax ∧ a.ymin ≤ b.ymin ∧ b.ymax ≤ a.ymax ∧ a.zmin ≤ b.zmin ∧ b.zmax ≤ a.zmax := by
  simp only [Box.contains, Bool.and_eq_true, decide_eq_true_iff, and_assoc]

theorem Category.atLeast_iff (new old : Category) : new.atLeast old = true ↔ old.code ≤ new.code := by
  rw [Category.atLeast, decide_eq_true_iff]

/-- R63, kind by kind. -/
theorem ZoneEntry.asStrict_iff (new old : ZoneEntry) : new.asStrict old = true ↔
    (old.state ≠ .unused → new.state = old.state ∧ new.kind = old.kind ∧
      (old.kind = .keepIn → Box.contains old.effective new.box = true) ∧
      (old.kind ≠ .keepIn → Box.contains new.box old.effective = true) ∧ old.margin ≤ new.margin ∧
      (old.kind ≠ .slow → old.response.code ≤ new.response.code) ∧
      (old.kind = .slow → new.scale ≤ old.scale) ∧
      (old.state = .live → new.refresh ≤ old.refresh ∧ old.growth ≤ new.growth)) := by
  unfold ZoneEntry.asStrict
  cases states : old.state <;> cases kinds : old.kind <;> simp [Category.atLeast_iff] <;> grind

theorem ZoneKind.bars_iff (k : ZoneKind) : k.bars = true ↔ k ≠ .slow := by cases k <;> decide

theorem ZoneMonitor.barredBy_iff (m : ZoneMonitor) (z : ZoneEntry) :
    m.barredBy z = true ↔ z.kind ≠ .slow ∧ (z.Hits m.currentTip ∨ z.Hits m.stopTip) := by
  rw [ZoneMonitor.barredBy, Bool.and_eq_true, Bool.or_eq_true, ZoneKind.bars_iff, ZoneEntry.hitBy_iff_hits,
    ZoneEntry.hitBy_iff_hits]

/-- Settles O26: the comparisons of R63, then the tips of R64. -/
theorem zoneSetInRunOnlyTightens : Obligations.ZoneSetInRunOnlyTightens := by
  unfold Obligations.ZoneSetInRunOnlyTightens
  intro tag f i z s room run index read consistent
  have strict_iff := ZoneEntry.asStrict_iff z s.part.zone.zones[i]
  simp only [Box.contains_iff] at strict_iff
  have judged := (Part.requestZoneSet_read (s := s.part.reserving 0x21#8 tag) index read).trans
    ((if_neg (by rw [consistent]; exact Bool.false_ne_true)).trans (Part.judgeZone_run (s := s.part.reserving _ _) run))
  refine ⟨fun loose => ?_, fun strict hits => ?_, fun strict clear => ?_⟩
  · refine exec_unchanged room rfl rfl rfl (judged.trans (if_pos ?_))
    rw [Bool.not_eq_true', Bool.eq_false_iff]
    exact mt strict_iff.mp loose
  all_goals
    have strict := strict_iff.mpr strict
    have judged := judged.trans (if_neg (by
      rw [Bool.not_eq_true', Bool.eq_false_iff]
      exact fun loose => loose strict))
  · exact exec_unchanged room rfl rfl rfl (judged.trans (if_pos ((ZoneMonitor.barredBy_iff _ _).mpr hits)))
  · exact exec_putZone room rfl rfl rfl (judged.trans (if_neg (mt (ZoneMonitor.barredBy_iff _ _).mp clear)))

/-! ### The answers of Live Zone Update -/

section
variable {s : Part} {i : ZoneIx}

theorem Part.requestLiveZoneUpdate_setup (setup : s.lane.mode = .setup) (n : Nat) (box : Box) :
    s.requestLiveZoneUpdate n box = refuse s .wrongMode := if_pos setup

theorem Part.requestLiveZoneUpdate_range (run : s.lane.mode = .run) {n : Nat} (beyond : 16 ≤ n) (box : Box) :
    s.requestLiveZoneUpdate n box = refuse s .range := by
  rw [Part.requestLiveZoneUpdate, if_neg (by rw [run]; exact PartMode.noConfusion), zoneIxOf_eq_none beyond]

theorem Part.requestLiveZoneUpdate_run (run : s.lane.mode = .run) (i : ZoneIx) (box : Box) :
    s.requestLiveZoneUpdate i.val box = if s.zone.zones[i].state ≠ .live then refuse s .wrongState
      else if !Box.ordered (Box.clamped box) then refuse s .invalid
      else done (s.putZone i { s.zone.zones[i] with
        box := Box.clamped box, effective := Box.clamped box, age := 0 }) := by
  rw [Part.requestLiveZoneUpdate, if_neg (by rw [run]; exact PartMode.noConfusion), zoneIxOf_val]

end

/-- Settles O27, answer by answer. -/
theorem liveZoneUpdateResult : Obligations.LiveZoneUpdateResult := by
  unfold Obligations.LiveZoneUpdateResult
  intro tag box s room
  refine ⟨fun setup n => ?_, fun run n beyond => ?_, fun run i other => ?_, fun run i live bad => ?_,
    fun run i live sound => ?_⟩
  · exact exec_unchanged room rfl rfl rfl (Part.requestLiveZoneUpdate_setup (s := s.part.reserving _ _) setup n box)
  · exact exec_unchanged room rfl rfl rfl (Part.requestLiveZoneUpdate_range (s := s.part.reserving _ _) run beyond box)
  all_goals have judged := Part.requestLiveZoneUpdate_run (s := s.part.reserving 0x23#8 tag) run i box
  · exact exec_unchanged room rfl rfl rfl (judged.trans (if_pos other))
  all_goals have judged := judged.trans (if_neg (Classical.not_not.mpr live))
  · refine exec_unchanged room rfl rfl rfl (judged.trans (if_pos ?_))
    rw [Bool.not_eq_true', Bool.eq_false_iff]
    exact mt (Box.ordered_iff _).mp bad
  · refine exec_putZone room rfl rfl rfl (judged.trans (if_neg ?_))
    rw [Bool.not_eq_true', Bool.eq_false_iff]
    exact fun inverted => inverted ((Box.ordered_iff _).mpr sound)

end Sys2Proof.Machine
end

section
/-! SETTLED. The reads: what each answers, and the layout of its data. -/

namespace Sys2Proof.Machine

section
variable {s : Part}

/-! ### The answers -/

theorem Part.requestAxisRead_slot (s : Part) (c : Slot) : s.requestAxisRead c.val = doneWith s
    ([byteOf c.val, 0, 0, 0] ++ s.shaper.axes[c].bytes ++ [if s.shaper.axes[c].set then 1 else 0]) :=
  dif_pos c.isLt

theorem Part.requestAxisRead_timing (s : Part) :
    s.requestAxisRead 12 = doneWith s ([12, 0, 0, 0] ++ s.shaper.timing.bytes ++ [Config.timingSetByte]) :=
  (dif_neg (by decide)).trans (if_pos rfl)

theorem Part.requestAxisRead_beyond {n : Nat} (beyond : 12 < n) : s.requestAxisRead n = refuse s .range :=
  (dif_neg (by omega)).trans (if_neg (by omega))

theorem Part.requestZoneRead_entry (s : Part) (i : ZoneIx) :
    s.requestZoneRead i.val = doneWith s (s.zone.readBytes i) := by
  rw [Part.requestZoneRead, zoneIxOf_val]

theorem Part.requestZoneRead_beyond {n : Nat} (beyond : 16 ≤ n) : s.requestZoneRead n = refuse s .range := by
  rw [Part.requestZoneRead, zoneIxOf_eq_none beyond]

theorem Part.requestDirectoryRead_slot (complete : s.array.scanComplete = true) (i : DirIx) :
    s.requestDirectoryRead i.val = doneWith s (s.array.directory[i].readBytes i) := by
  simp [Part.requestDirectoryRead, dirIxOf_val, TakeArray.scanning, complete]

theorem Part.requestDirectoryRead_scanning (scan : s.array.scanComplete = false) {n : Nat} (below : n < 64) :
    s.requestDirectoryRead n = refuse s .busy := by
  rw [Part.requestDirectoryRead, dirIxOf_val ⟨n, below⟩]
  exact if_pos (by rw [TakeArray.scanning, scan]; rfl)

theorem Part.requestDirectoryRead_beyond {n : Nat} (beyond : 64 ≤ n) :
    s.requestDirectoryRead n = refuse s .range := by
  rw [Part.requestDirectoryRead, dirIxOf_eq_none beyond]

theorem Part.requestCueRead_entry (s : Part) (i : CueIx) :
    s.requestCueRead i.val = doneWith s (s.player.cues[i].readBytes i) := by
  rw [Part.requestCueRead, cueIxOf_eq_some rfl]

theorem Part.requestCueRead_beyond {n : Nat} (beyond : 16 ≤ n) : s.requestCueRead n = refuse s .range := by
  rw [Part.requestCueRead, cueIxOf_eq_none beyond]

end

/-! ### Lens Table Read -/

/-- R113: the ranges of a table read. -/
def TableReadFields.Allowed (f : TableReadFields) : Prop :=
  8 ≤ f.channel ∧ f.channel ≤ 11 ∧ f.choice ≤ 1 ∧ f.start ≤ 63 ∧ 1 ≤ f.count ∧ f.count ≤ 32

/-- R113: the entries that a table read answers, from the start on. -/
def LensChannel.readEntries (c : LensChannel) (f : TableReadFields) : List StagingEntry :=
  if f.choice = 0 then (List.range f.count).map fun k => tableEntry c.coming (f.start + k)
  else (List.range f.count).map fun k => c.staging[(f.start + k) % 64]'(Nat.mod_lt _ (by omega))

/-- R113: the point count byte that a table read answers. -/
def LensChannel.readCount (c : LensChannel) (f : TableReadFields) : Byte :=
  if f.choice = 0 then byteOf c.coming.length else Config.stagingCountByte

theorem Part.requestLensTableRead_range {s : Part} {f : TableReadFields} (out : ¬ TableReadFields.Allowed f) :
    s.requestLensTableRead f = refuse s .range := by
  unfold Part.requestLensTableRead
  by_cases channel : 8 ≤ f.channel ∧ f.channel < 12
  · rw [lensIxOf, dif_pos channel]
    refine if_pos ?_
    unfold TableReadFields.Allowed at out
    omega
  · rw [lensIxOf_eq_none channel]

theorem Part.requestLensTableRead_done {s : Part} {f : TableReadFields} (ok : TableReadFields.Allowed f) {l : LensIx}
    (channel : f.channel = l.val + 8) : s.requestLensTableRead f = doneWith s (tableReadBytes f.choice
      (s.lens.chans[l].readCount f) (s.lens.chans[l].readEntries f)) := by
  unfold TableReadFields.Allowed at ok
  unfold Part.requestLensTableRead
  rw [lensIxOf_eq_some channel]
  dsimp only
  rw [if_neg (by omega)]
  obtain choice | choice : f.choice = 0 ∨ f.choice = 1 := by omega
  · rw [if_pos choice, LensChannel.readEntries, if_pos choice, LensChannel.readCount, if_pos choice, choice]
  · rw [if_neg (by omega), LensChannel.readEntries, if_neg (by omega), LensChannel.readCount, if_neg (by omega), choice]

section
variable {f : TableReadFields} (c : LensChannel)

theorem LensChannel.readEntries_length : (c.readEntries f).length = f.count := by
  unfold LensChannel.readEntries
  split <;> rw [List.length_map, List.length_range]

theorem LensChannel.readEntries_table (choice : f.choice = 0) {k : Nat} (below : k < f.count) :
    (c.readEntries f)[k]? = some (tableEntry c.coming (f.start + k)) := by
  simp [LensChannel.readEntries, if_pos choice, below]

theorem LensChannel.readEntries_staging (choice : f.choice = 1) {k : Nat} (below : k < f.count) {i : Fin 64}
    (place : i.val = (f.start + k) % 64) : (c.readEntries f)[k]? = some c.staging[i] := by
  simp [LensChannel.readEntries, choice, below, place]

end

/-! ### The data, byte by byte -/

theorem byteOf_bitsOf_getLsbD (bits : List Bool) {k : Nat} (below : k < 8) :
    (byteOf (bitsOf bits)).getLsbD k = bits.getD k false := by
  rw [byteOf, BitVec.getLsbD_ofNat, bitsOf_testBit, decide_eq_true below, Bool.true_and]

/-- A run of records of eight bytes each, read at one of them. -/
theorem drop_flatMap_eight {α : Type} {g : α → List Byte} (eight : ∀ a, (g a).length = 8) (as : List α) (k : Nat) :
    (as.flatMap g).drop (8 * k) = (as.drop k).flatMap g := by
  induction k generalizing as with
  | zero => rfl
  | succ k ih =>
    cases as with
    | nil => simp
    | cons a as =>
      rw [List.flatMap_cons, List.drop_succ_cons, ← ih, Nat.mul_succ, Nat.add_comm, ← List.drop_drop]
      congr 1
      exact List.drop_left' (eight a)

/-- The eight bytes of an entry in the data of a table read. -/
def StagingEntry.bytes (e : StagingEntry) : List Byte := leBytes 4 e.phys ++ leBytesInt 4 e.count

section
variable (choice : Nat) (n : Byte) (es : List StagingEntry)

theorem tableReadBytes_length : (tableReadBytes choice n es).length = 8 + 8 * es.length := by
  have entries : (es.flatMap StagingEntry.bytes).length = 8 * es.length := by
    induction es with
    | nil => rfl
    | cons e es ih => simp only [List.flatMap_cons, List.length_append, ih, StagingEntry.bytes, leBytes_length,
        leBytesInt_length, List.length_cons]; omega
  simp only [tableReadBytes, spare, List.length_append, leBytes_length, List.length_cons, List.length_nil,
    List.length_replicate]
  exact congrArg (8 + ·) entries

theorem tableReadBytes_written {k : Nat} {e : StagingEntry} (entry : es[k]? = some e) (few : es.length ≤ 32) :
    (BitVec.ofNat 32 (fieldNat (tableReadBytes choice n es) 4 4)).getLsbD k = e.written := by
  have below : k < 32 := Nat.lt_of_lt_of_le (List.getElem?_eq_some_iff.mp entry).1 few
  have field : fieldNat (tableReadBytes choice n es) 4 4 = bitsOf (es.map (·.written)) % 256 ^ 4 :=
    fieldNat_leBytes [byteOf choice, n, byteOf es.length, 0#8] (es.flatMap StagingEntry.bytes) 4 _
  rw [field, BitVec.getLsbD_ofNat, decide_eq_true below, Bool.true_and, show (256 : Nat) ^ 4 = 2 ^ 32 from rfl,
    Nat.testBit_mod_two_pow, decide_eq_true below, Bool.true_and, bitsOf_testBit]
  simp [entry]

theorem tableReadBytes_entry {k : Nat} {e : StagingEntry} (entry : es[k]? = some e) :
    bytesAt (tableReadBytes choice n es) (8 + 8 * k) 4 = leBytes 4 e.phys ∧
    bytesAt (tableReadBytes choice n es) (12 + 8 * k) 4 = leBytesInt 4 e.count := by
  obtain ⟨below, rfl⟩ := List.getElem?_eq_some_iff.mp entry
  have rest : (tableReadBytes choice n es).drop (8 + 8 * k) =
      StagingEntry.bytes es[k] ++ (es.drop (k + 1)).flatMap StagingEntry.bytes := by
    rw [← List.drop_drop, ← List.flatMap_cons, List.getElem_cons_drop, ← drop_flatMap_eight (fun _ => rfl)]
    rfl
  have later : (tableReadBytes choice n es).drop (12 + 8 * k) = (StagingEntry.bytes es[k] ++
      (es.drop (k + 1)).flatMap StagingEntry.bytes).drop 4 := by
    rw [← rest, List.drop_drop]
    congr 1
    omega
  exact ⟨congrArg (List.take 4) rest, congrArg (List.take 4) later⟩

end

theorem AxisRecord.bytes_laid (a : AxisRecord) : a.bytes.length = 36 ∧
    byteAt a.bytes 0 = flagByte a.present ∧ byteAt a.bytes 1 = byteOf a.kind.code ∧
    byteAt a.bytes 2 = flagByte a.brakePresent ∧ byteAt a.bytes 3 = byteOf a.confirm.code ∧
    bytesAt a.bytes 4 4 = leBytesInt 4 a.pmin ∧ bytesAt a.bytes 8 4 = leBytesInt 4 a.pmax ∧
    bytesAt a.bytes 12 4 = leBytes 4 a.vmax ∧ bytesAt a.bytes 16 4 = leBytes 4 a.amax ∧
    bytesAt a.bytes 20 4 = leBytes 4 a.astop ∧ bytesAt a.bytes 24 4 = leBytes 4 a.following ∧
    byteAt a.bytes 28 = byteOf a.followCount ∧ bytesAt a.bytes 30 2 = leBytes 2 a.still ∧
    bytesAt a.bytes 32 4 = leBytes 4 a.divergence :=
  ⟨rfl, rfl, rfl, rfl, rfl, rfl, rfl, rfl, rfl, rfl, rfl, rfl, rfl, rfl⟩

theorem StopTiming.bytes_laid (u : StopTiming) : u.bytes.length = 36 ∧
    byteAt u.bytes 0 = byteOf u.stillDwell ∧ byteAt u.bytes 1 = byteOf u.stillMask ∧
    byteAt u.bytes 2 = byteOf u.brakeMask ∧ bytesAt u.bytes 4 2 = leBytes 2 u.stillTimeout ∧
    bytesAt u.bytes 6 2 = leBytes 2 u.brakeTimer ∧ bytesAt u.bytes 8 2 = leBytes 2 u.brakeTimeout ∧
    bytesAt u.bytes 10 2 = leBytes 2 u.armingTimeout :=
  ⟨rfl, rfl, rfl, rfl, rfl, rfl, rfl, rfl⟩

theorem ZoneEntry.responseByte_held {z : ZoneEntry} (held : z.state = .unused ∨ z.kind ≠ .slow) :
    z.responseByte = byteOf z.response.code :=
  if_neg fun unread => held.elim unread.1 fun other => other unread.2

theorem ZoneEntry.scaleField_held {z : ZoneEntry} (held : z.state = .unused ∨ z.kind = .slow) :
    z.scaleField = z.scale :=
  if_neg fun unread => held.elim unread.1 unread.2

/-- R69, section 11.3: the data of a zone read, its list of bytes written out. -/
theorem ZoneMonitor.readBytes_laid (m : ZoneMonitor) (i : ZoneIx) :
    (m.readBytes i).length = 93 ∧ byteAt (m.readBytes i) 0 = byteOf i.val ∧
    byteAt (m.readBytes i) 1 = byteOf m.zones[i].state.code ∧ byteAt (m.readBytes i) 2 = byteOf m.zones[i].kind.code ∧
    byteAt (m.readBytes i) 3 = m.zones[i].responseByte ∧ bytesAt (m.readBytes i) 4 24 = boxBytes m.zones[i].box ∧
    bytesAt (m.readBytes i) 28 4 = leBytes 4 m.zones[i].margin ∧
    bytesAt (m.readBytes i) 32 2 = leBytes 2 m.zones[i].scaleField ∧
    bytesAt (m.readBytes i) 34 2 = leBytes 2 m.zones[i].refresh ∧
    bytesAt (m.readBytes i) 36 2 = leBytes 2 m.zones[i].growth ∧
    bytesAt (m.readBytes i) 40 4 = leBytes 4 m.zones[i].age ∧
    bytesAt (m.readBytes i) 44 24 = boxBytes m.zones[i].effective ∧
    bytesAt (m.readBytes i) 68 12 = pointBytes m.currentTip ∧ bytesAt (m.readBytes i) 80 12 = pointBytes m.stopTip ∧
    byteAt (m.readBytes i) 92 = byteOf (bitsOf [m.currentHits.getLsbD i.val, m.stopHits.getLsbD i.val]) := by
  simp only [ZoneMonitor.readBytes, ZoneEntry.bytes, boxBytes, pointBytes, leBytesInt, leBytes, spare, List.replicate,
    List.cons_append, List.nil_append]
  exact ⟨rfl, rfl, rfl, rfl, rfl, rfl, rfl, rfl, rfl, rfl, rfl, rfl, rfl, rfl, rfl⟩

theorem Cue.endField_held {c : Cue} {e : Nat} (held : c.endIx = some e) : c.endField = e := by
  rw [Cue.endField, held, Option.getD_some]

/-- R174, section 11.3: the data of a cue read, its list of bytes written out. -/
theorem Cue.readBytes_laid (c : Cue) (i : CueIx) : (c.readBytes i).length = 24 ∧
    byteAt (c.readBytes i) 0 = byteOf i.val ∧
    byteAt (c.readBytes i) 1 = byteOf (bitsOf [decide (c.owner = .part), c.lock, c.recordWith, c.endIx.isNone]) ∧
    byteAt (c.readBytes i) 2 = byteOf c.slot.val ∧ byteAt (c.readBytes i) 3 = byteOf c.trigger.code ∧
    bytesAt (c.readBytes i) 4 4 = leBytes 4 c.start ∧ bytesAt (c.readBytes i) 8 4 = leBytes 4 c.endField ∧
    bytesAt (c.readBytes i) 12 2 = leBytes 2 c.speed ∧ bytesAt (c.readBytes i) 14 2 = leBytes 2 c.mask.toNat ∧
    byteAt (c.readBytes i) 16 = byteOf c.status.code ∧
    bytesAt (c.readBytes i) 20 4 = leBytes 4 c.startFrame.toNat := by
  simp only [Cue.readBytes, leBytes, spare, List.replicate, List.cons_append, List.nil_append]
  exact ⟨rfl, rfl, rfl, rfl, rfl, rfl, rfl, rfl, rfl, rfl, rfl⟩

theorem modes_toList (v : Vector LensMode 4) : v.toList = [v[0], v[1], v[2], v[3]] := by
  obtain ⟨⟨list⟩, size⟩ := v
  match list, size with
  | [_, _, _, _], _ => rfl

/-- R147, section 11.3: the data of a directory read, its list of bytes written out. -/
theorem DirectorySlot.readBytes_laid (r : DirectorySlot) (i : DirIx) : (r.readBytes i).length = 40 ∧
    byteAt (r.readBytes i) 0 = byteOf i.val ∧ byteAt (r.readBytes i) 1 = byteOf r.state.code ∧
    byteAt (r.readBytes i) 2 = byteOf r.endReason.code ∧
    byteAt (r.readBytes i) 3 = byteOf (bitsOf [r.locked, r.lockPending]) ∧
    bytesAt (r.readBytes i) 4 4 = leBytes 4 r.info.serial.toNat ∧
    bytesAt (r.readBytes i) 8 2 = leBytes 2 r.info.mask.toNat ∧ byteAt (r.readBytes i) 10 = byteOf r.info.divisor ∧
    (∀ l : LensIx, byteAt (r.readBytes i) (12 + l.val) = byteOf r.info.modes[l].code) ∧
    bytesAt (r.readBytes i) 16 4 = leBytes 4 r.info.startFrame.toNat ∧
    bytesAt (r.readBytes i) 20 2 = leBytes 2 r.bays.length ∧ bytesAt (r.readBytes i) 24 4 = leBytes 4 r.dataPages ∧
    bytesAt (r.readBytes i) 28 4 = leBytes 4 r.samples ∧ bytesAt (r.readBytes i) 32 4 = leBytes 4 r.marks ∧
    bytesAt (r.readBytes i) 36 4 = leBytes 4 r.gaps := by
  simp only [DirectorySlot.readBytes, modes_toList, leBytes, spare, List.replicate, List.map, List.cons_append,
    List.nil_append]
  refine ⟨rfl, rfl, rfl, rfl, rfl, rfl, rfl, rfl, fun l => ?_, rfl, rfl, rfl, rfl, rfl, rfl⟩
  match l with
  | 0 | 1 | 2 | 3 => rfl

/-- Settles O23: each request by its answer, and the data by their layouts. -/
theorem readsAnswerAndChangeNothing : Obligations.ReadsAnswerAndChangeNothing := by
  unfold Obligations.ReadsAnswerAndChangeNothing
  refine ⟨fun tag n s room => ⟨fun c => ?_, ⟨Config.timingSetByte, ?_⟩, fun beyond => ?_, fun i => ?_, fun beyond => ?_,
      fun complete i => ?_, fun scan below => ?_, fun beyond => ?_, fun i => ?_, fun beyond => ?_⟩,
    fun tag f s room => ⟨fun out => ?_, fun ok => ?_⟩, AxisRecord.bytes_laid, StopTiming.bytes_laid, fun m i => ?_,
    fun c i => ?_, fun r i => ?_⟩
  · exact exec_unchanged room rfl rfl rfl (Part.requestAxisRead_slot _ c)
  · exact exec_unchanged room rfl rfl rfl (Part.requestAxisRead_timing _)
  · exact exec_unchanged room rfl rfl rfl (Part.requestAxisRead_beyond beyond)
  · exact exec_unchanged room rfl rfl rfl (Part.requestZoneRead_entry _ i)
  · exact exec_unchanged room rfl rfl rfl (Part.requestZoneRead_beyond beyond)
  · exact exec_unchanged room rfl rfl rfl (Part.requestDirectoryRead_slot (s := s.part.reserving _ _) complete i)
  · exact exec_unchanged room rfl rfl rfl (Part.requestDirectoryRead_scanning (s := s.part.reserving _ _) scan below)
  · exact exec_unchanged room rfl rfl rfl (Part.requestDirectoryRead_beyond beyond)
  · exact exec_unchanged room rfl rfl rfl (Part.requestCueRead_entry _ i)
  · exact exec_unchanged room rfl rfl rfl (Part.requestCueRead_beyond beyond)
  · exact exec_unchanged room rfl rfl rfl (Part.requestLensTableRead_range out)
  · obtain ⟨l, channel⟩ := exists_lensIx ok.1 ok.2.1
    have long := s.part.lens.chans[l].readEntries_length (f := f)
    have few : (s.part.lens.chans[l].readEntries f).length ≤ 32 := long ▸ ok.2.2.2.2.2
    refine ⟨l, s.part.lens.chans[l].readCount f, s.part.lens.chans[l].readEntries f, channel,
      exec_unchanged room rfl rfl rfl (Part.requestLensTableRead_done (s := s.part.reserving _ _) ok channel), long,
      ⟨(tableReadBytes_length _ _ _).trans (by rw [long]), rfl, rfl, congrArg byteOf long,
        fun k e entry => ⟨tableReadBytes_written _ _ _ entry few, tableReadBytes_entry _ _ _ entry⟩⟩,
      fun choice => ⟨if_pos choice, fun k below => ?_⟩,
      fun choice k i below place => LensChannel.readEntries_staging _ choice below place⟩
    have entry := s.part.lens.chans[l].readEntries_table choice below
    unfold tableEntry at entry
    split
    · next p point =>
      rw [show s.part.lens.chans[l].coming[f.start + k]? = some p from point] at entry
      exact entry
    · next unused =>
      rw [show s.part.lens.chans[l].coming[f.start + k]? = none from unused] at entry
      rw [entry]
      rfl
  · obtain ⟨length, index, state, kind, response, box, margin, scale, refresh, growth, age, effective, current, stop,
      hits⟩ := m.readBytes_laid i
    exact ⟨length, index, state, kind, fun held => response.trans (ZoneEntry.responseByte_held held), box, margin,
      fun held => scale.trans (congrArg (leBytes 2) (ZoneEntry.scaleField_held held)), refresh, growth, age, effective,
      current, stop, (congrArg (·.getLsbD 0) hits).trans (byteOf_bitsOf_getLsbD _ (by decide)),
      (congrArg (·.getLsbD 1) hits).trans (byteOf_bitsOf_getLsbD _ (by decide))⟩
  · obtain ⟨length, index, flags, slot, trigger, start, last, speed, mask, status, frame⟩ := c.readBytes_laid i
    refine ⟨length, index, ?_, ?_, ?_, ?_, slot, trigger, start,
      fun e held => last.trans (congrArg (leBytes 4) (Cue.endField_held held)), speed, mask, status, frame⟩
    all_goals
      rw [flags]
      exact byteOf_bitsOf_getLsbD _ (by decide)
  · obtain ⟨length, index, state, reason, flags, rest⟩ := r.readBytes_laid i
    refine ⟨length, index, state, reason, ?_, ?_, rest⟩
    all_goals
      rw [flags]
      exact byteOf_bitsOf_getLsbD _ (by decide)

end Sys2Proof.Machine
end

section
/-! SETTLED. Taking a cause: the table of R81, and what leaving Running does to sources, player and recorder. -/

namespace Sys2Proof.Machine

/-! ### A cause recorded -/

theorem Sequencer.record_causes (q : Sequencer) (kind : CauseKind) (detail n : Nat) :
    (q.record kind detail).causes.getLsbD n = (q.causes.getLsbD n || n == kind.bit) := by
  have least : kind.bit < 16 := by cases kind <;> decide
  simp only [Sequencer.record, joinCause, BitVec.getLsbD_or, BitVec.getLsbD_ofNat, Nat.testBit_two_pow]
  congr 1
  rw [Bool.eq_iff_iff]
  simp only [Bool.and_eq_true, decide_eq_true_eq, beq_iff_eq]
  omega

theorem Sequencer.record_firstCause (q : Sequencer) (kind : CauseKind) (detail : Nat) :
    (q.record kind detail).firstCause = some (q.firstCause.getD ⟨kind, detail⟩) := by
  unfold Sequencer.record
  cases q.firstCause <;> rfl

/-! ### Braking entered -/

theorem Part.hasBrake_iff (s : Part) : s.hasBrake = true ↔ ∃ a : Axis,
    s.shaper.axes[Axis.slot a].present = true ∧ s.shaper.axes[Axis.slot a].brakePresent = true := by
  simp [Part.hasBrake, Shaper.motion, allAxes]

/-- R94: Braking, before it is asked whether it is complete. -/
def Part.beginBraking (s : Part) : Part :=
  Part.onAxes { s with seq := { s.seq with
    state := .braking, category := .none, phaseStart := s.gateway.cycle, phaseCount := 0 } }
    fun _ r x => { x with confirmed := !r.brakePresent }

theorem Part.onAxes_axes (s : Part) (f : Axis → AxisRecord → SequencerAxis → SequencerAxis) (a : Axis) :
    (s.onAxes f).seq.axes[a] = if s.shaper.axes[Axis.slot a].present then
      f a s.shaper.axes[Axis.slot a] s.seq.axes[a] else s.seq.axes[a] := by
  simp [Part.onAxes]

theorem Part.beginBraking_confirmed {s : Part} {a : Axis} (present : s.shaper.axes[Axis.slot a].present = true) :
    s.beginBraking.seq.axes[a].confirmed = !s.shaper.axes[Axis.slot a].brakePresent := by
  rw [Part.beginBraking, Part.onAxes_axes, if_pos present]

theorem Part.allConfirmed_beginBraking (s : Part) : s.beginBraking.allConfirmed = !s.hasBrake := by
  rw [Bool.eq_iff_iff, Part.allConfirmed_iff, Bool.not_eq_true', ← Bool.not_eq_true, Part.hasBrake_iff]
  constructor
  · rintro confirmed ⟨a, present, brake⟩
    have freed := (Part.beginBraking_confirmed present).symm.trans (confirmed a present)
    rw [brake] at freed
    exact nomatch freed
  · intro none a present
    refine (Part.beginBraking_confirmed (s := s) present).trans ?_
    rw [Bool.not_eq_true']
    exact Bool.eq_false_iff.mpr fun brake => none ⟨a, present, brake⟩

theorem Part.enterBraking_eq (s : Part) :
    s.enterBraking = if s.hasBrake then s.beginBraking else s.beginBraking.enterSafeOff := by
  show s.beginBraking.completeBraking = _
  rw [Part.completeBraking, s.allConfirmed_beginBraking]
  cases s.hasBrake <;> rfl

/-! ### The table of R81 -/

/-- A transition by a category, as the table of R81 has it; what was recorded stays. -/
structure Part.Tabled (s t : Part) (category : Category) : Prop where
  causes : t.seq.causes = s.seq.causes
  first : t.seq.firstCause = s.seq.firstCause
  lineE : t.seq.eStopOpen = s.seq.eStopOpen
  lineG : t.seq.guardOpen = s.seq.guardOpen
  state : t.seq.state = s.seq.state.after category s.hasBrake
  category : t.seq.category = s.seq.category.after s.seq.state category
  chain : t.seq.state ≠ .safeOff ∨ s.seq.state = .safeOff → t.seq.chainClosed = s.seq.chainClosed
  opened : t.seq.state = .safeOff → s.seq.state ≠ .safeOff →
    t.seq.chainClosed = false ∧ t.zone.recovery = false

/-- Nothing is entered. -/
theorem Part.Tabled.stay {s : Part} {category : Category} (state : s.seq.state = s.seq.state.after category s.hasBrake)
    (inForce : s.seq.category = s.seq.category.after s.seq.state category) : s.Tabled s category :=
  ⟨rfl, rfl, rfl, rfl, state, inForce, fun _ => rfl, fun off on => absurd off on⟩

/-- Safe-Off is entered, from whatever left the sequencer's record and lines as they were. -/
theorem Part.Tabled.off {s t : Part} {category : Category} (causes : t.seq.causes = s.seq.causes)
    (first : t.seq.firstCause = s.seq.firstCause) (lineE : t.seq.eStopOpen = s.seq.eStopOpen)
    (lineG : t.seq.guardOpen = s.seq.guardOpen) (on : s.seq.state ≠ .safeOff)
    (state : s.seq.state.after category s.hasBrake = .safeOff)
    (inForce : s.seq.category.after s.seq.state category = .none) : s.Tabled t.enterSafeOff category :=
  ⟨causes, first, lineE, lineG, state.symm, inForce.symm, fun h => h.elim (absurd rfl) fun off => absurd off on,
    fun _ _ => ⟨rfl, rfl⟩⟩

/-- Another state is entered. -/
theorem Part.Tabled.enter {s t : Part} {category : Category} (causes : t.seq.causes = s.seq.causes)
    (first : t.seq.firstCause = s.seq.firstCause) (lineE : t.seq.eStopOpen = s.seq.eStopOpen)
    (lineG : t.seq.guardOpen = s.seq.guardOpen) (chain : t.seq.chainClosed = s.seq.chainClosed)
    (on : t.seq.state ≠ .safeOff) (state : t.seq.state = s.seq.state.after category s.hasBrake)
    (inForce : t.seq.category = s.seq.category.after s.seq.state category) : s.Tabled t category :=
  ⟨causes, first, lineE, lineG, state, inForce, fun _ => chain, fun off => absurd off on⟩

theorem Part.transition_tabled (s : Part) (category : Category) : s.Tabled (s.transition category) category := by
  have left := s.leaveRunning_work.seq
  unfold Part.transition
  split
  case h_1 run | h_8 run =>
    refine .enter ?_ ?_ ?_ ?_ ?_ StopState.noConfusion (by rw [run]; rfl) (by rw [run]; rfl)
    all_goals
      dsimp only [Part.enterRamping]
      rw [left]
  case h_15 run =>
    exact .off (by rw [left]) (by rw [left]) (by rw [left]) (by rw [left]) (by rw [run]; exact StopState.noConfusion)
      (by rw [run]; rfl) (by rw [run]; rfl)
  case h_9 now | h_10 now =>
    exact .enter rfl rfl rfl rfl rfl (by dsimp only [Part.hardenToRamp]; rw [now]; exact StopState.noConfusion)
      (by dsimp only [Part.hardenToRamp]; rw [now]; rfl) (by rw [now]; rfl)
  case h_11 hold =>
    rw [Part.enterBraking_eq]
    split
    · next brake => exact .enter rfl rfl rfl rfl rfl StopState.noConfusion (by rw [hold, brake]; rfl) (by rw [hold]; rfl)
    · next none =>
      exact .off rfl rfl rfl rfl (by rw [hold]; exact StopState.noConfusion)
        (by rw [hold, Bool.eq_false_iff.mpr none]; rfl) (by rw [hold]; rfl)
  case h_13 now | h_16 now | h_17 now | h_18 now | h_19 now | h_20 now =>
    exact .off rfl rfl rfl rfl (by rw [now]; exact StopState.noConfusion) (by rw [now]; rfl) (by rw [now]; rfl)
  all_goals
    next now => exact .stay (by rw [now]; rfl) (by rw [now]; rfl)

/-- R80, R81: a cause posted. -/
theorem Part.post_causes (s : Part) (kind : CauseKind) (category : Category) (detail n : Nat) :
    (s.post kind category detail).seq.causes.getLsbD n = (s.seq.causes.getLsbD n || n == kind.bit) := by
  rw [Part.post, (Part.transition_tabled _ category).causes]
  exact s.seq.record_causes kind detail n

theorem Part.post_firstCause (s : Part) (kind : CauseKind) (category : Category) (detail : Nat) :
    (s.post kind category detail).seq.firstCause = some (s.seq.firstCause.getD ⟨kind, detail⟩) :=
  (Part.transition_tabled _ category).first.trans (s.seq.record_firstCause kind detail)

theorem Part.post_state (s : Part) (kind : CauseKind) (category : Category) (detail : Nat) :
    (s.post kind category detail).seq.state = s.seq.state.after category s.hasBrake :=
  (Part.transition_tabled _ category).state

/-- Settles O29, from the table of transitions and what a recorded cause leaves. -/
theorem causeFollowsTable : Obligations.CauseFollowsTable := by
  unfold Obligations.CauseFollowsTable
  intro p kind category detail
  have tabled := Part.transition_tabled { p with seq := p.seq.record kind detail } category
  exact ⟨p.post_causes kind category detail, p.post_firstCause kind category detail, tabled.state, tabled.category,
    tabled.chain, tabled.opened⟩

/-! ### Stop -/

/-- A take is recorded while a request that holds a ticket stands in the list of the player, where the conditions
of the statement do not look. -/
def strayStop : Part :=
  { Part.reset with
    seq := { Part.reset.seq with state := .running }
    recorder := { Part.reset.recorder with state := .recording, slot := some 0, bufferA := ⟨.filling, some 0, []⟩ }
    array := { Part.reset.array with playerJobs := [.takeRead 0 0 0], scanComplete := true, scan := none } }

theorem strayStop_room : strayStop.Room where
  room := by decide
  fresh := by intro e he; exact absurd he List.not_mem_nil
  jobs := by intro n hn; exact absurd hn List.not_mem_nil

/-- The closing of the take makes the controller turn the stray request away, which answers the Stop's reply. -/
theorem strayStop_tail :
    (strayStop.serveStop 0 0).lane.tail = some ⟨0, 0, 0x30#8, some ⟨.wrongState, []⟩⟩ := by decide

/-- Refutes O30: the conditions say nothing of the lists of the player and the recorder. -/
theorem not_stopRequestResult : ¬ Obligations.StopRequestResult := by
  unfold Obligations.StopRequestResult
  intro holds
  obtain ⟨t, left, tail, -⟩ := (holds 0 ⟨strayStop, []⟩ strayStop_room).2 .hold
  have part : strayStop.serveStop 0 0 = t := congrArg State.part (Host.Outcome.next.inj left)
  rw [← part, strayStop_tail] at tail
  exact absurd tail (by decide)

/-! ### The lines -/

theorem Part.openEStop_open (s : Part) : s.openEStop.seq.chainClosed = false :=
  (Part.transition_hard_open
    { s with seq := Sequencer.record { s.seq with eStopOpen := true, chainClosed := false } .eStop 0 } fun _ => rfl).2

/-- Settles O32: an opening posts its cause, a closing is recorded. -/
theorem stopLines : Obligations.StopLines := by
  unfold Obligations.StopLines
  refine fun s => ⟨fun closed => ⟨s.part.openEStop, ?_, ?_, s.part.openEStop_open, ?_, ?_, ?_⟩, rfl,
    fun closed => ⟨s.part.openGuard, ?_, ?_, ?_, ?_, ?_⟩, rfl⟩
  · exact congrArg (fun p => (.next { s with part := p } : Host.Outcome State Fault Refusal))
      (if_neg (Bool.eq_false_iff.mp closed))
  · exact (Part.transition_tabled _ .hard).lineE
  · exact Part.post_state _ .eStop .hard 0
  · exact (Part.post_causes _ .eStop .hard 0 0).trans (Bool.or_true _)
  · exact Part.post_firstCause _ .eStop .hard 0
  · exact congrArg (fun p => (.next { s with part := p } : Host.Outcome State Fault Refusal))
      (if_neg (Bool.eq_false_iff.mp closed))
  · exact (Part.transition_tabled _ .ramp).lineG
  · exact Part.post_state _ .guard .ramp 0
  · exact (Part.post_causes _ .guard .ramp 0 1).trans (Bool.or_true _)
  · exact Part.post_firstCause _ .guard .ramp 0

end Sys2Proof.Machine
end

section
/-! SETTLED. Leaving Running, Rearm, Continue and Target Update. -/

namespace Sys2Proof.Machine

/-! ### The controller beside a player that plays nothing -/

/-- Of the player, work changes at most the prefetch, and of the shaper nothing. -/
def Part.AddsPages (s t : Part) : Prop := t.shaper = s.shaper ∧ ∃ pages, t.player = { s.player with prefetch := pages }

section
variable {s t u : Part}

theorem Part.AddsPages.refl (s : Part) : s.AddsPages s := ⟨rfl, s.player.prefetch, rfl⟩

theorem Part.AddsPages.trans (h : s.AddsPages t) (k : t.AddsPages u) : s.AddsPages u := by
  obtain ⟨shaper, pages, player⟩ := h
  obtain ⟨shaper', pages', player'⟩ := k
  exact ⟨shaper'.trans shaper, pages', player'.trans (by rw [player])⟩

theorem Part.AddsPages.state (h : s.AddsPages t) : t.player.state = s.player.state := by
  obtain ⟨-, _, player⟩ := h
  rw [player]

theorem Part.playerReadDone_addsPages (idle : s.player.state.idle = true) (page : Nat) (data : Option (List Byte)) :
    s.AddsPages (s.playerReadDone page data) := by
  unfold Part.playerReadDone
  split
  case h_2 | h_3 => exact .refl s
  case h_7 halted =>
    unfold Part.prefetchArrived Part.takeLatchedGo
    rw [if_neg fun go => PlayerState.noConfusion (halted.symm.trans go.1)]
    exact ⟨rfl, _, rfl⟩
  all_goals
    next state =>
      rw [state] at idle
      exact nomatch idle

theorem Part.startJob_addsPages (idle : s.player.state.idle = true) (j : Job) : s.AddsPages (s.startJob j) := by
  unfold Part.startJob
  split
  · exact .refl s
  · cases j
    case playerRead => exact Part.playerReadDone_addsPages idle _ _
    all_goals exact .refl s

theorem Part.chooseRounds_addsPages (n : Nat) (idle : s.player.state.idle = true) :
    s.AddsPages (Part.chooseRounds n s) := by
  induction n generalizing s with
  | zero => exact .refl s
  | succ n ih =>
    have next (t : TakeArray) (j : Job) :
        s.AddsPages (Part.chooseRounds n (Part.startJob { s with array := t } j)) := by
      have start := Part.startJob_addsPages (s := { s with array := t }) idle j
      exact start.trans (ih (by rw [start.state]; exact idle))
    unfold Part.chooseRounds
    split
    · exact .refl s
    · split
      case h_4 => exact .refl s
      all_goals exact next _ _

theorem Part.kick_addsPages (idle : s.player.state.idle = true) : s.AddsPages s.kick := by
  unfold Part.kick
  split
  · exact .refl s
  · split
    · exact .refl s
    · exact Part.chooseRounds_addsPages (s := { s with array := { s.array with operation := none, suspended := some _ } })
        _ idle
  · exact Part.chooseRounds_addsPages _ idle

theorem Part.addRecorderJobs_addsPages (idle : s.player.state.idle = true) (js : List Job) :
    s.AddsPages (s.addRecorderJobs js) :=
  Part.kick_addsPages (s := { s with array := { s.array with recorderJobs := s.array.recorderJobs ++ js } }) idle

/-! ### The closing of a take -/

theorem Part.returnReserved_addsPages (s : Part) : s.AddsPages s.returnReserved := by
  unfold Part.returnReserved
  split <;> exact .refl _

theorem Part.returnReserved_reason (s : Part) : s.returnReserved.recorder.closeReason = s.recorder.closeReason := by
  unfold Part.returnReserved
  split <;> rfl

theorem Recorder.setBuffer_closeReason (r : Recorder) (i : BufferId) (b : PageBuffer) :
    (r.setBuffer i b).closeReason = r.closeReason := by cases i <;> rfl

theorem Part.closeRecording_addsPages (idle : s.player.state.idle = true) (reason : EndReason) :
    s.AddsPages (s.closeRecording reason) := by
  unfold Part.closeRecording
  dsimp only
  split
  · refine .trans (t := Part.returnReserved { s with recorder := _ }) ?_
      (Part.addRecorderJobs_addsPages (by rw [(Part.returnReserved_addsPages _).state]; exact idle) _)
    exact .trans (t := { s with recorder := _ }) (.refl s) (Part.returnReserved_addsPages _)
  · exact .trans (t := { s with recorder := _ }) (.refl s) (Part.returnReserved_addsPages _)

/-- R168: the recorder that closes a take, and why. -/
theorem Part.closeRecording_recorder (s : Part) (reason : EndReason) :
    (s.closeRecording reason).recorder.state = .closing ∧ (s.closeRecording reason).recorder.closeReason = reason := by
  unfold Part.closeRecording
  dsimp only
  split
  · rw [(Part.addRecorderJobs_work _ _ rfl).recorder]
    exact ⟨(Part.returnReserved_state _).trans (Recorder.setBuffer_state _ _ _),
      (Part.returnReserved_reason _).trans (Recorder.setBuffer_closeReason _ _ _)⟩
  · exact ⟨Part.returnReserved_state _, Part.returnReserved_reason _⟩

theorem Part.recorderStopNotice_addsPages (idle : s.player.state.idle = true) : s.AddsPages s.recorderStopNotice := by
  unfold Part.recorderStopNotice
  split
  · exact Part.closeRecording_addsPages idle _
  · exact Part.closeRecording_addsPages idle _
  · unfold Part.closeArmed
    split <;> exact .refl s
  all_goals exact .refl s

theorem Part.recorderStopNotice_closing (taking : s.recorder.state = .recording ∨ s.recorder.state = .stalled) :
    s.recorderStopNotice.recorder.state = .closing ∧ s.recorderStopNotice.recorder.closeReason = .stop := by
  unfold Part.recorderStopNotice
  rcases taking with state | state <;> rw [state] <;> exact s.closeRecording_recorder .stop

theorem Part.recorderStopNotice_armed (armed : s.recorder.state = .armed) :
    s.recorderStopNotice.recorder.state = .idle := by
  unfold Part.recorderStopNotice
  rw [armed]
  exact s.closeArmed_quiet.2

/-! ### The player at the stop notice -/

theorem Part.playerStopNotice_shaper (s : Part) : s.playerStopNotice.shaper = s.shaper := by
  unfold Part.playerStopNotice
  dsimp only
  split <;> rfl

theorem Part.playerStopNotice_halts
    (playing : s.player.state = .approaching ∨ s.player.state = .waiting ∨ s.player.state = .playing) :
    s.playerStopNotice.player.state = .halted ∧ s.playerStopNotice.player.pointer = s.player.pointer := by
  unfold Part.playerStopNotice
  dsimp only
  rcases playing with state | state | state <;> rw [state] <;> exact ⟨rfl, rfl⟩

end

/-! ### Leaving Running -/

section
variable {s : Part}

theorem Part.leaveRunning_addsPages (s : Part) :
    ({ s with shaper := s.shaper.recordResume.parkTakeLenses } : Part).playerStopNotice.AddsPages s.leaveRunning :=
  Part.recorderStopNotice_addsPages (Part.playerStopNotice_idle _)

theorem Part.leaveRunning_shaper (s : Part) : s.leaveRunning.shaper = s.shaper.recordResume.parkTakeLenses :=
  s.leaveRunning_addsPages.1.trans (Part.playerStopNotice_shaper _)

theorem Part.leaveRunning_halts
    (playing : s.player.state = .approaching ∨ s.player.state = .waiting ∨ s.player.state = .playing) :
    s.leaveRunning.player.state = .halted ∧ s.leaveRunning.player.pointer = s.player.pointer := by
  obtain ⟨-, _, player⟩ := s.leaveRunning_addsPages
  rw [player]
  exact Part.playerStopNotice_halts (s := { s with shaper := s.shaper.recordResume.parkTakeLenses }) playing

theorem Part.playerStopNotice_recorder (s : Part) : s.playerStopNotice.recorder = s.recorder :=
  s.playerStopNotice_work.recorder

theorem Part.leaveRunning_closing (taking : s.recorder.state = .recording ∨ s.recorder.state = .stalled) :
    s.leaveRunning.recorder.state = .closing ∧ s.leaveRunning.recorder.closeReason = .stop :=
  Part.recorderStopNotice_closing (by rw [Part.playerStopNotice_recorder]; exact taking)

theorem Part.leaveRunning_armed (armed : s.recorder.state = .armed) : s.leaveRunning.recorder.state = .idle :=
  Part.recorderStopNotice_armed (by rw [Part.playerStopNotice_recorder]; exact armed)

theorem isMotion_axis (a : Axis) : isMotion (Axis.slot a) = true := decide_eq_true a.isLt

theorem isMotion_lens (l : LensIx) : isMotion (LensIx.slot l) = false := decide_eq_false (by simp [LensIx.slot])

/-- R41, R87: a lens channel once Running is left. -/
theorem Part.leaveRunning_lens (s : Part) (l : LensIx) : s.leaveRunning.shaper.chans[LensIx.slot l] =
    if s.shaper.chans[LensIx.slot l].source = .take then
      s.shaper.chans[LensIx.slot l].parkHere s.shaper.axes[LensIx.slot l].amax
    else s.shaper.chans[LensIx.slot l] := by
  rw [Part.leaveRunning_shaper, Shaper.parkTakeLenses, Shaper.mapChans_get, Shaper.recordResume, Shaper.onMotion_get,
    isMotion_lens]
  simp only [Bool.false_and, Bool.false_eq_true, if_false, Bool.not_false, Bool.true_and, decide_eq_true_eq]
  rfl

/-- R41, R87: a motion axis once Running is left. -/
theorem Part.leaveRunning_axis (s : Part) (a : Axis) : s.leaveRunning.shaper.chans[Axis.slot a] =
    if s.shaper.axes[Axis.slot a].present then { s.shaper.chans[Axis.slot a] with
      resume := if s.shaper.chans[Axis.slot a].source = .live then .live else .parked }
    else s.shaper.chans[Axis.slot a] := by
  rw [Part.leaveRunning_shaper, Shaper.parkTakeLenses, Shaper.mapChans_get, isMotion_axis, Shaper.recordResume,
    Shaper.onMotion_get, isMotion_axis]
  simp only [Bool.not_true, Bool.false_and, Bool.false_eq_true, if_false, Bool.true_and]

/-- What a cause leaves of a part in Running, by its category. -/
theorem Part.transition_running (run : s.seq.state = .running) (category : Category) : s.transition category =
    if category = .hard then s.leaveRunning.enterSafeOff
    else s.leaveRunning.enterRamping (if category = .hold then .hold else .ramp) := by
  unfold Part.transition
  rw [run]
  cases category <;> rfl

/-- A channel of a motion axis that is told its new source. -/
theorem Shaper.onMotion_axis (sh : Shaper) (f : AxisRecord → Channel → Channel) (a : Axis) :
    (sh.onMotion f).chans[Axis.slot a] = if sh.axes[Axis.slot a].present then
      f sh.axes[Axis.slot a] sh.chans[Axis.slot a] else sh.chans[Axis.slot a] := by
  rw [Shaper.onMotion_get, isMotion_axis, Bool.true_and]

theorem Shaper.onMotion_lens (sh : Shaper) (f : AxisRecord → Channel → Channel) (l : LensIx) :
    (sh.onMotion f).chans[LensIx.slot l] = sh.chans[LensIx.slot l] := by
  rw [Shaper.onMotion_get, isMotion_lens, Bool.false_and, if_neg Bool.false_ne_true]

/-- R41: the sources once a cause has left Running. -/
theorem Part.transition_running_lens (run : s.seq.state = .running) (category : Category) (l : LensIx) :
    (s.transition category).shaper.chans[LensIx.slot l] = s.leaveRunning.shaper.chans[LensIx.slot l] := by
  rw [Part.transition_running run]
  split
  · rw [Part.enterSafeOff, Shaper.track, Shaper.onMotion_lens]
  · rw [Part.enterRamping, Shaper.beginRamp, Shaper.onMotion_lens]

theorem Part.transition_running_axis (run : s.seq.state = .running) (category : Category) (a : Axis) :
    (s.transition category).shaper.chans[Axis.slot a] =
      if s.shaper.axes[Axis.slot a].present = false then s.shaper.chans[Axis.slot a]
      else if category = .hard then { s.shaper.chans[Axis.slot a] with
        source := .track, resume := if s.shaper.chans[Axis.slot a].source = .live then .live else .parked }
      else { s.shaper.chans[Axis.slot a] with
        source := .stop, resume := if s.shaper.chans[Axis.slot a].source = .live then .live else .parked
        rampDecel := s.shaper.axes[Axis.slot a].astop } := by
  have axes := s.leaveRunning_work.axes
  have left := s.leaveRunning_axis a
  rw [Part.transition_running run]
  cases present : s.shaper.axes[Axis.slot a].present <;> rw [present] at left
  all_goals
    split
    · rw [Part.enterSafeOff, Shaper.track, Shaper.onMotion_axis, axes, present, left]
      rfl
    · rw [Part.enterRamping, Shaper.beginRamp, Shaper.onMotion_axis, axes, present, left]
      rfl

/-- The player and the recorder once a cause has left Running. -/
theorem Part.transition_running_player (run : s.seq.state = .running) (category : Category) :
    (s.transition category).player = s.leaveRunning.player ∧
      (s.transition category).recorder = s.leaveRunning.recorder := by
  rw [Part.transition_running run]
  split <;> exact ⟨rfl, rfl⟩

end

/-- Settles O31, from what leaving Running does and what the state entered makes of the motion axes. -/
theorem leavingRunning : Obligations.LeavingRunning := by
  unfold Obligations.LeavingRunning
  intro p kind category detail run
  have recorded : ({ p with seq := p.seq.record kind detail } : Part).seq.state = .running := run
  obtain ⟨player, recorder⟩ := Part.transition_running_player recorded category
  have quiet := Part.leaveRunning_quiet { p with seq := p.seq.record kind detail }
  dsimp only [Part.post]
  rw [player, recorder]
  refine ⟨quiet.1, quiet.2, Part.leaveRunning_halts (s := { p with seq := p.seq.record kind detail }),
    Part.leaveRunning_closing (s := { p with seq := p.seq.record kind detail }),
    Part.leaveRunning_armed (s := { p with seq := p.seq.record kind detail }), fun l => ?_,
    Part.transition_running_axis recorded category⟩
  exact (Part.transition_running_lens recorded category l).trans (Part.leaveRunning_lens _ l)

end Sys2Proof.Machine
end

section
/-! SETTLED. Rearm, Continue and Target Update. -/

namespace Sys2Proof.Machine

/-! ### Rearm -/

section
variable {s : Part}

/-- R98 step 4: the conditions of Rearm. -/
theorem Part.rearmAllowed_iff (s : Part) (recover : Bool) : s.rearmAllowed recover = true ↔
    s.seq.eStopOpen = false ∧ s.seq.guardOpen = false ∧
      (∀ c : Slot, s.shaper.axes[c].present = true → s.gateway.feedback[c].status.fault = false) ∧
      s.gateway.driveMiss = 0 ∧
      (∀ a : Axis, s.shaper.axes[Axis.slot a].present = true →
        s.gateway.feedback[Axis.slot a].stale = false ∧
        s.shaper.axes[Axis.slot a].pmin ≤ s.gateway.feedback[Axis.slot a].actual ∧
        s.gateway.feedback[Axis.slot a].actual ≤ s.shaper.axes[Axis.slot a].pmax) ∧
      (s.zone.clear = true ∨ recover = true) := by
  simp only [Part.rearmAllowed, Shaper.motion, allAxes, allSlots, List.all_eq_true, List.mem_filter, List.mem_finRange,
    Bool.and_eq_true, Bool.or_eq_true, Bool.not_eq_true', Bool.and_eq_false_imp, beq_iff_eq, decide_eq_true_iff, and_assoc,
    true_and, true_implies]

theorem Part.requestRearm_setup (setup : s.lane.mode = .setup) (recover : Nat) :
    s.requestRearm recover = refuse s .wrongMode := if_pos setup

theorem Part.requestRearm_range (run : s.lane.mode = .run) {recover : Nat} (out : 1 < recover) :
    s.requestRearm recover = refuse s .range := by
  rw [Part.requestRearm, if_neg (by rw [run]; exact PartMode.noConfusion)]
  rcases recover with _ | _ | n
  · omega
  · omega
  · rfl

theorem Part.requestRearm_run (run : s.lane.mode = .run) {recover : Nat} (flag : recover ≤ 1) :
    s.requestRearm recover = if s.seq.state ≠ .safeOff then refuse s .wrongState
      else if s.rearmAllowed (recover == 1) then done (s.rearm (recover == 1)) else refuse s .blocked := by
  rw [Part.requestRearm, if_neg (by rw [run]; exact PartMode.noConfusion), flagOfCode_eq_some_iff.mpr ⟨flag, rfl⟩]

/-- R99: the channels once a Rearm is accepted. -/
theorem Part.takeUpParked_axis {c : Slot} (axis : c.val < 8 ∧ s.shaper.axes[c].present = true)
    (low : s.shaper.axes[c].pmin ≤ s.gateway.feedback[c].actual)
    (high : s.gateway.feedback[c].actual ≤ s.shaper.axes[c].pmax) :
    s.takeUpParked.chans[c] = { s.shaper.chans[c] with
      source := .parked, v := 0, p := s.gateway.feedback[c].actual * 65536, park := s.gateway.feedback[c].actual * 65536 } := by
  obtain ⟨motion, present⟩ := axis
  have window : s.window c = (s.shaper.axes[c].pmin, s.shaper.axes[c].pmax) := by
    rw [Part.window, lensOf, dif_neg (by omega)]
  have inside : clamp (s.gateway.feedback[c].actual * 65536) (fineWindow (s.window c)).1 (fineWindow (s.window c)).2 =
      s.gateway.feedback[c].actual * 65536 := by
    rw [window, fineWindow]
    exact clamp_of_between (by dsimp only; omega) (by dsimp only; omega)
  rw [Part.takeUpParked, Shaper.mapChans_get, if_pos (by rw [present, isMotion, decide_eq_true motion]; rfl)]
  simp only [Channel.takeUp, Channel.follow, Channel.parkAt, inside]

theorem Part.takeUpParked_other {c : Slot} (other : ¬ (c.val < 8 ∧ s.shaper.axes[c].present = true)) :
    s.takeUpParked.chans[c] = s.shaper.chans[c] := by
  rw [Part.takeUpParked, Shaper.mapChans_get, if_neg]
  rw [isMotion, Bool.and_eq_true, decide_eq_true_iff]
  exact other

/-- R76, R99: an accepted Rearm. -/
theorem Part.rearm_eq (s : Part) (recover : Bool) : s.rearm recover = { s with
    shaper := { s.shaper with chans := s.takeUpParked.chans, sigma := (s.rearm recover).shaper.sigma }
    zone := { s.zone with recovery := s.zone.recovery || (recover && !s.zone.clear) }
    seq := { s.seq with
      causes := 0, firstCause := none, chainClosed := true, state := .arming
      readiness := false, phaseStart := s.gateway.cycle, phaseCount := 0
      axes := Vector.ofFn fun a : Axis => { s.seq.axes[a] with confirmed := false, shown := false } } } := by
  unfold Part.rearm Part.handRecover
  dsimp only
  by_cases recovering : recover = true ∧ (!s.zone.clear) = true
  · rw [if_pos recovering, (Bool.and_eq_true _ _).mpr recovering, Bool.or_true]
    rfl
  · rw [if_neg recovering, Bool.eq_false_iff.mpr (mt (Bool.and_eq_true _ _).mp recovering), Bool.or_false]
    rfl

theorem Part.rearm_sigma (s : Part) (recover : Bool) :
    ((recover && !s.zone.clear) = true → (s.rearm recover).shaper.sigma ≤ 256) ∧
    ((recover && !s.zone.clear) = false → (s.rearm recover).shaper.sigma = s.shaper.sigma) := by
  unfold Part.rearm Part.handRecover
  dsimp only
  constructor
  · intro recovering
    rw [Bool.and_eq_true] at recovering
    rw [if_pos recovering]
    exact (ZoneMonitor.speedScale_worksOut { s.zone with recovery := true }).2.1 rfl
  · intro steady
    rw [if_neg]
    · rfl
    · rw [← Bool.and_eq_true, steady]
      exact Bool.false_ne_true

end

/-- Settles O33, answer by answer. -/
theorem rearmResult : Obligations.RearmResult := by
  unfold Obligations.RearmResult
  intro tag recover s room
  have allowed := Part.rearmAllowed_iff s.part (recover == 1)
  rw [beq_iff_eq] at allowed
  refine ⟨fun setup => ?_, fun run out => ?_, fun run flag on => ?_, fun run flag off bad => ?_,
    fun run flag off ok => ?_⟩
  · exact exec_unchanged room rfl rfl rfl (Part.requestRearm_setup (s := s.part.reserving _ _) setup recover)
  · exact exec_unchanged room rfl rfl rfl (Part.requestRearm_range (s := s.part.reserving _ _) run out)
  all_goals have judged := Part.requestRearm_run (s := s.part.reserving 0x31#8 tag) run flag
  · exact exec_unchanged room rfl rfl rfl (judged.trans (if_pos on))
  all_goals have judged := judged.trans (if_neg (Classical.not_not.mpr off))
  · exact exec_unchanged room rfl rfl rfl (judged.trans (if_neg (mt allowed.mp bad)))
  · have sigma := Part.rearm_sigma (s.part.reserving 0x31#8 tag) (recover == 1)
    refine ⟨s.part.takeUpParked.chans, _, ?_, sigma.1, sigma.2, fun c axis => ?_, fun c => Part.takeUpParked_other⟩
    · exact exec_answered room rfl rfl rfl
        (judged.trans ((if_pos (allowed.mpr ok)).trans (congrArg done (Part.rearm_eq (s.part.reserving 0x31#8 tag) _)))) rfl rfl
    · obtain ⟨-, low, high⟩ := ok.2.2.2.2.1 ⟨c.val, axis.1⟩ axis.2
      exact Part.takeUpParked_axis axis low high

/-! ### Continue -/

section
variable {s : Part}

theorem Part.requestContinue_setup (setup : s.lane.mode = .setup) : s.requestContinue = refuse s .wrongMode :=
  if_pos setup

theorem Part.requestContinue_run (run : s.lane.mode = .run) : s.requestContinue =
    if s.seq.state ≠ .holding then refuse s .wrongState
    else if s.seq.guardOpen ∨ (!s.zone.clear ∧ !s.zone.recovery) then refuse s .blocked else done s.continueRunning := by
  rw [Part.requestContinue, if_neg (by rw [run]; exact PartMode.noConfusion)]

/-- R103: the channels once a Continue is accepted. -/
theorem Part.continueRunning_eq (s : Part) : s.continueRunning = { s with
    seq := { s.seq with state := .running }
    shaper := { s.shaper with chans := Vector.ofFn fun c : Slot =>
      if c.val < 8 ∧ s.shaper.axes[c].present = true ∧ s.shaper.chans[c].resume = .live then
        { s.shaper.chans[c] with source := .live }
      else s.shaper.chans[c] } } := by
  have channels (c : Slot) : (if isMotion c && s.shaper.axes[c].present then
      (if s.shaper.chans[c].resume = .live then s.shaper.chans[c].withSource .live else s.shaper.chans[c])
      else s.shaper.chans[c]) =
      if c.val < 8 ∧ s.shaper.axes[c].present = true ∧ s.shaper.chans[c].resume = .live then
        { s.shaper.chans[c] with source := .live } else s.shaper.chans[c] := by
    simp only [isMotion, Bool.and_eq_true, decide_eq_true_eq]
    by_cases motion : c.val < 8 ∧ s.shaper.axes[c].present = true
    · by_cases live : s.shaper.chans[c].resume = .live
      · rw [if_pos motion, if_pos live, if_pos ⟨motion.1, motion.2, live⟩]
        rfl
      · rw [if_pos motion, if_neg live, if_neg fun both => live both.2.2]
    · rw [if_neg motion, if_neg fun both => motion ⟨both.1, both.2.1⟩]
  simp only [Part.continueRunning, Shaper.resumeLive, Shaper.onMotion, Shaper.mapChans, channels]

end

/-- Settles O34, answer by answer. -/
theorem continueResult : Obligations.ContinueResult := by
  unfold Obligations.ContinueResult
  intro tag s room
  have blocks : (s.part.seq.guardOpen = true ∨ (!s.part.zone.clear) = true ∧ (!s.part.zone.recovery) = true) ↔
      s.part.seq.guardOpen = true ∨ (s.part.zone.clear = false ∧ s.part.zone.recovery = false) := by
    rw [Bool.not_eq_true', Bool.not_eq_true']
  refine ⟨fun setup => ?_, fun run other => ?_, fun run hold blocked => ?_, fun run hold free => ?_⟩
  · exact exec_unchanged room rfl rfl rfl (Part.requestContinue_setup (s := s.part.reserving _ _) setup)
  all_goals have judged := Part.requestContinue_run (s := s.part.reserving 0x32#8 tag) run
  · exact exec_unchanged room rfl rfl rfl (judged.trans (if_pos other))
  all_goals have judged := judged.trans (if_neg (Classical.not_not.mpr hold))
  · exact exec_unchanged room rfl rfl rfl (judged.trans (if_pos (blocks.mpr blocked)))
  · exact exec_answered room rfl rfl rfl (judged.trans ((if_neg (mt blocks.mp free)).trans
      (congrArg done (Part.continueRunning_eq (s.part.reserving 0x32#8 tag))))) rfl rfl

/-! ### Target Update -/

/-- Settles O49: the ranges, and the target taken over. -/
theorem targetUpdateResult : Obligations.TargetUpdateResult := by
  unfold Obligations.TargetUpdateResult
  intro tag f s room
  have ranges : 1 ≤ f.refresh ∧ f.refresh ≤ 65535 ∧ within f.offset (-16777215) 16777215 = true ↔
      1 ≤ f.refresh ∧ f.refresh ≤ 65535 ∧ -16777215 ≤ f.offset ∧ f.offset ≤ 16777215 := by rw [within_iff]
  refine ⟨fun out => ?_, fun ok => ?_⟩
  · exact exec_unchanged room rfl rfl rfl (if_neg (mt ranges.mp out))
  · exact exec_answered room rfl rfl rfl (if_pos (ranges.mpr ok)) rfl rfl

end Sys2Proof.Machine
end

section
/-! SETTLED. The stop sequencer's readings of feedback and its timers. -/

namespace Sys2Proof.Machine

/-! ### The axes of the sequencer -/

section
variable {s : Part} {f : Axis → AxisRecord → SequencerAxis → SequencerAxis}

theorem Part.onAxes_present {a : Axis} (present : s.shaper.axes[Axis.slot a].present = true) :
    (s.onAxes f).seq.axes[a] = f a s.shaper.axes[Axis.slot a] s.seq.axes[a] := by
  rw [Part.onAxes_axes, if_pos present]

theorem Part.onAxes_confirmed (s : Part) (f : Axis → AxisRecord → SequencerAxis → SequencerAxis) (a : Axis) :
    (s.onAxes f).seq.axes[a].confirmed = if s.shaper.axes[Axis.slot a].present then
      (f a s.shaper.axes[Axis.slot a] s.seq.axes[a]).confirmed else s.seq.axes[a].confirmed := by
  rw [Part.onAxes_axes]
  split <;> rfl

theorem Part.allConfirmed_onAxes_iff : (s.onAxes f).allConfirmed = true ↔ ∀ a : Axis,
    s.shaper.axes[Axis.slot a].present = true → (f a s.shaper.axes[Axis.slot a] s.seq.axes[a]).confirmed = true := by
  rw [Part.allConfirmed_iff]
  refine forall_congr' fun a => forall_congr' fun present => ?_
  rw [Part.onAxes_present (s := s) present]

theorem ConfirmMode.byFeedback_eq (m : ConfirmMode) : m.byFeedback = decide (m ≠ .timer) := by cases m <;> rfl

theorem ConfirmMode.byTimer_eq (m : ConfirmMode) : m.byTimer = (m != .feedback) := by cases m <;> rfl

/-- R92: a present motion axis once Holding is entered. -/
theorem Part.enterHolding_axis {a : Axis} (present : s.shaper.axes[Axis.slot a].present = true) :
    s.enterHolding.shaper.chans[Axis.slot a] =
      { s.shaper.chans[Axis.slot a] with source := .parked, park := s.shaper.chans[Axis.slot a].p } := by
  rw [Part.enterHolding, Shaper.holdHere, Shaper.onMotion_axis, if_pos present]
  rfl

/-- R96: Braking with some axes newly confirmed: complete in Safe-Off, or going on. -/
theorem Part.completeBraking_onAxes (s : Part) (f : Axis → AxisRecord → SequencerAxis → SequencerAxis) :
    let all := ∀ a : Axis, s.shaper.axes[Axis.slot a].present = true →
      (f a s.shaper.axes[Axis.slot a] s.seq.axes[a]).confirmed = true
    (all → (s.onAxes f).completeBraking.seq.state = .safeOff ∧ (s.onAxes f).completeBraking.seq.chainClosed = false ∧
      (s.onAxes f).completeBraking.seq.causes = s.seq.causes) ∧
    (¬ all → (s.onAxes f).completeBraking = s.onAxes f) := by
  unfold Part.completeBraking
  refine ⟨fun all => ?_, fun some => ?_⟩
  · rw [if_pos (Part.allConfirmed_onAxes_iff.mpr all)]
    exact ⟨rfl, rfl, rfl⟩
  · rw [if_neg (mt Part.allConfirmed_onAxes_iff.mp some)]

/-- R101: Arming with some axes newly confirmed: complete in Holding, or going on. -/
theorem Part.completeArming_onAxes (ready : s.seq.readiness = true) :
    let all := ∀ a : Axis, s.shaper.axes[Axis.slot a].present = true →
      (f a s.shaper.axes[Axis.slot a] s.seq.axes[a]).confirmed = true
    (all → (s.onAxes f).completeArming = (s.onAxes f).enterHolding) ∧
    (¬ all → (s.onAxes f).completeArming = s.onAxes f) := by
  unfold Part.completeArming
  refine ⟨fun all => ?_, fun some => ?_⟩
  · rw [if_pos ⟨ready, Part.allConfirmed_onAxes_iff.mpr all⟩]
  · rw [if_neg fun complete => some (Part.allConfirmed_onAxes_iff.mp complete.2)]

/-- R101: either way the newly confirmed axes stay so. -/
theorem Part.completeArming_axes (s : Part) : s.completeArming.seq.axes = s.seq.axes := by
  unfold Part.completeArming
  split <;> rfl

/-- R101: what the completion of Arming leaves. -/
theorem Part.enterHolding_onAxes (s : Part) (f : Axis → AxisRecord → SequencerAxis → SequencerAxis) :
    (s.onAxes f).enterHolding.seq.state = .holding ∧ (s.onAxes f).enterHolding.seq.category = .none ∧
    (s.onAxes f).enterHolding.seq.chainClosed = s.seq.chainClosed ∧
    ∀ a : Axis, s.shaper.axes[Axis.slot a].present = true → (s.onAxes f).enterHolding.shaper.chans[Axis.slot a] =
      { s.shaper.chans[Axis.slot a] with source := .parked, park := s.shaper.chans[Axis.slot a].p } :=
  ⟨rfl, rfl, rfl, fun _ present => Part.enterHolding_axis (s := s.onAxes f) present⟩

end

/-! ### The standstill reading -/

/-- R91: the run and the reference that a reading leaves, as the table has them. -/
theorem SequencerAxis.readStill_eq (x : SequencerAxis) (fb : Feedback) (cycle : CycleNo) (threshold dwell : Nat) :
    x.readStill fb cycle threshold dwell = { x with
      stillRun := match x.reference with
        | none => 0
        | some r => if fb.stale = false ∧ fb.status.answered = true ∧ r.cycle + 1 = cycle ∧
            (fb.actual - r.count).natAbs ≤ threshold then min dwell (x.stillRun + 1) else 0
      reference := if fb.stale = false ∧ fb.status.answered = true then some ⟨fb.actual, cycle⟩ else none } := by
  unfold SequencerAxis.readStill
  cases stale : fb.stale <;> cases answered : fb.status.answered <;> cases x.reference <;> simp
  next r =>
  by_cases follows : r.cycle + 1#16 = cycle
  · rw [if_pos follows]
    split
    · next near => rw [if_pos ⟨follows, near⟩]
    · next far => rw [if_neg fun near => far near.2]
  · rw [if_neg follows, if_neg fun near => follows near.1]

theorem Part.standstill_iff (s : Part) : s.standstill = true ↔ ∀ a : Axis,
    s.shaper.axes[Axis.slot a].present = true → s.seq.axes[a].stillRun = s.shaper.timing.stillDwell := by
  simp [Part.standstill, Shaper.motion, allAxes, Decidable.imp_iff_not_or]

theorem cyclesAfter_eq_zero_iff (cycle start : CycleNo) : cyclesAfter cycle start = 0 ↔ cycle = start := by
  unfold cyclesAfter
  bv_omega

section
variable {p : Part} {cycle : CycleNo}

/-- R91: the axes after a reading in Settling. -/
theorem Part.readSettling_axes (p : Part) (cycle : CycleNo) :
    (p.onAxes fun a r x => x.readStill p.gateway.feedback[Axis.slot a] cycle r.still p.shaper.timing.stillDwell) =
      { p with seq := { p.seq with axes := Vector.ofFn fun a : Axis =>
        if p.shaper.axes[Axis.slot a].present then { p.seq.axes[a] with
          stillRun := match p.seq.axes[a].reference with
            | none => 0
            | some r => if p.gateway.feedback[Axis.slot a].stale = false ∧
                p.gateway.feedback[Axis.slot a].status.answered = true ∧ r.cycle + 1 = cycle ∧
                (p.gateway.feedback[Axis.slot a].actual - r.count).natAbs ≤ p.shaper.axes[Axis.slot a].still then
                min p.shaper.timing.stillDwell (p.seq.axes[a].stillRun + 1) else 0
          reference := if p.gateway.feedback[Axis.slot a].stale = false ∧
            p.gateway.feedback[Axis.slot a].status.answered = true then
            some ⟨p.gateway.feedback[Axis.slot a].actual, cycle⟩ else none }
        else p.seq.axes[a] } } := by
  simp only [Part.onAxes, SequencerAxis.readStill_eq]

theorem Part.sequencerReading_settling (settling : p.seq.state = .settling) :
    p.sequencerReading cycle = p.readSettling cycle := by rw [Part.sequencerReading, settling]

theorem Part.sequencerReading_braking (braking : p.seq.state = .braking) :
    p.sequencerReading cycle = p.readBraking cycle := by rw [Part.sequencerReading, braking]

theorem Part.sequencerReading_ready (arming : p.seq.state = .arming) (start : p.seq.releaseStart = none) :
    p.sequencerReading cycle = p.readReadiness cycle := by rw [Part.sequencerReading, arming, start]

theorem Part.sequencerReading_release {start : CycleNo} (arming : p.seq.state = .arming)
    (started : p.seq.releaseStart = some start) : p.sequencerReading cycle = p.readRelease cycle start := by
  rw [Part.sequencerReading, arming, started]

theorem Part.sequencerReading_idle (idle : p.seq.state = .safeOff ∨ p.seq.state = .holding ∨
    p.seq.state = .running ∨ p.seq.state = .ramping) : p.sequencerReading cycle = p := by
  rw [Part.sequencerReading]
  rcases idle with state | state | state | state <;> rw [state]

end

/-- R100: the part once readiness is seen. -/
def Part.seeReadiness (s : Part) : Part :=
  { s with seq := { s.seq with readiness := true, releaseStart := some s.gateway.cycle, releaseServed := 0 } }

/-- R100: the showings of a feedback. -/
def Part.readShown (s : Part) : Part :=
  s.onAxes fun a _ x => { x with shown := s.gateway.feedback[Axis.slot a].status.showsReady }

theorem Part.readReadiness_eq (s : Part) (cycle : CycleNo) : s.readReadiness cycle =
    if cyclesAfter cycle s.seq.phaseStart = 0 then s
    else if s.readShown.shaper.motion.all fun a => s.readShown.seq.axes[a].shown then
      (s.readShown.seeReadiness.onAxes fun _ r x => { x with confirmed := x.confirmed || !r.brakePresent }).completeArming
    else s.readShown := rfl

theorem Part.readShown_all_iff (s : Part) : (s.readShown.shaper.motion.all fun a => s.readShown.seq.axes[a].shown) = true ↔
    ∀ a : Axis, s.shaper.axes[Axis.slot a].present = true →
      s.gateway.feedback[Axis.slot a].status.showsReady = true := by
  have each (a : Axis) (present : s.shaper.axes[Axis.slot a].present = true) :
      s.readShown.seq.axes[a].shown = s.gateway.feedback[Axis.slot a].status.showsReady := by
    rw [Part.readShown, Part.onAxes_present present]
  simp only [Shaper.motion, List.all_eq_true, List.mem_filter, allAxes, List.mem_finRange, true_and]
  exact forall_congr' fun a => forall_congr' fun present => by rw [each a present]

theorem Part.readShown_confirmed (s : Part) (a : Axis) : s.readShown.seq.axes[a].confirmed = s.seq.axes[a].confirmed := by
  rw [Part.readShown, Part.onAxes_confirmed]
  split <;> rfl

/-- R91: a reading past the still mask, the axes it leaves given. -/
theorem Part.readSettling_past {p : Part} {cycle : CycleNo} {read : Vector SequencerAxis 8}
    (past : p.shaper.timing.stillMask < cyclesAfter cycle p.seq.phaseStart)
    (axes : (p.onAxes fun a r x =>
      x.readStill p.gateway.feedback[Axis.slot a] cycle r.still p.shaper.timing.stillDwell) =
        { p with seq := { p.seq with axes := read } }) :
    p.readSettling cycle = if ({ p with seq := { p.seq with axes := read } } : Part).standstill then
      ({ p with seq := { p.seq with axes := read } } : Part).declareStandstill
    else { p with seq := { p.seq with axes := read } } := by
  rw [Part.readSettling, if_neg (Nat.not_le.mpr past)]
  dsimp only
  rw [axes]

/-- R95: a reading in Braking past the brake mask. -/
theorem Part.readBraking_past {p : Part} {cycle : CycleNo}
    (past : p.shaper.timing.brakeMask < cyclesAfter cycle p.seq.phaseStart) :
    p.readBraking cycle = (p.onAxes fun a r x => { x with
      confirmed := x.confirmed || (r.brakePresent && decide (r.confirm ≠ .timer) &&
        p.gateway.feedback[Axis.slot a].status.answered &&
        p.gateway.feedback[Axis.slot a].status.brakeEngaged) }).completeBraking := by
  rw [Part.readBraking, if_neg (Nat.not_le.mpr past)]
  simp only [ConfirmMode.byFeedback_eq]

/-- R101: a reading of the release past the brake mask. -/
theorem Part.readRelease_past {p : Part} {cycle start : CycleNo}
    (past : p.shaper.timing.brakeMask < cyclesAfter cycle start) :
    p.readRelease cycle start = (p.onAxes fun a r x => { x with
      confirmed := x.confirmed || (r.brakePresent && decide (r.confirm ≠ .timer) &&
        p.gateway.feedback[Axis.slot a].status.answered &&
        !p.gateway.feedback[Axis.slot a].status.brakeEngaged) }).completeArming := by
  rw [Part.readRelease, if_neg (Nat.not_le.mpr past)]
  simp only [ConfirmMode.byFeedback_eq]

/-- Settles O35, state by state. -/
theorem standstillReading : Obligations.StandstillReading := by
  unfold Obligations.StandstillReading
  refine ⟨fun p cycle settling => ?_, fun p cycle => ⟨Part.sequencerReading_idle, fun braking => ?_,
    fun arming start => ?_, fun start arming started ready => ?_⟩⟩
  · rw [Part.sequencerReading_settling settling]
    intro dwell past run reference still q read
    have standstill : ({ p with seq := { p.seq with axes := read } } : Part).standstill = true ↔ still := by
      rw [Part.standstill_iff]
      refine forall_congr' fun a => forall_congr' fun present => ?_
      rw [show read[a] = if p.shaper.axes[Axis.slot a].present then
          { p.seq.axes[a] with stillRun := run a, reference := reference a } else p.seq.axes[a] by simp [read],
        if_pos present]
    refine ⟨fun early => if_pos (Nat.not_lt.mp early), fun after moving => ?_, fun after stands hold => ?_,
      fun after stands ramp => ?_⟩
    all_goals
      have left := Part.readSettling_past (read := read) after (p.readSettling_axes cycle)
      dsimp only [q]
      rw [left]
    · rw [if_neg (mt standstill.mp moving)]
    all_goals rw [if_pos (standstill.mpr stands), Part.declareStandstill]
    · dsimp only
      rw [hold]
      exact ⟨rfl, fun a present => Part.enterHolding_axis (s := { p with seq := { p.seq with axes := read } }) present⟩
    · dsimp only
      rw [ramp, Part.enterBraking_eq]
      show (if p.hasBrake then _ else _ : Part).seq.state = _
      cases p.hasBrake <;> rfl
  · rw [Part.sequencerReading_braking braking]
    intro past engaged
    refine ⟨fun early => if_pos (Nat.not_lt.mp early), fun after all => ?_, fun after some => ?_⟩
    all_goals rw [Part.readBraking_past after]
    · exact (p.completeBraking_onAxes _).1 all
    · rw [(p.completeBraking_onAxes _).2 some]
      exact ⟨braking, rfl, p.onAxes_confirmed _⟩
  · rw [Part.sequencerReading_ready arming start, Part.readReadiness_eq]
    intro ready free
    have own := cyclesAfter_eq_zero_iff cycle p.seq.phaseStart
    refine ⟨fun same => if_pos (own.mpr same), fun later some => ?_, fun later all => ?_⟩
    · rw [if_neg (mt own.mp later), if_neg (mt p.readShown_all_iff.mp some)]
      exact ⟨arming, rfl, start, fun a present => by rw [Part.readShown, Part.onAxes_present present]; rfl⟩
    · rw [if_neg (mt own.mp later), if_pos (p.readShown_all_iff.mpr all)]
      have confirms (a : Axis) : (p.readShown.seeReadiness.onAxes fun _ r x =>
          { x with confirmed := x.confirmed || !r.brakePresent }).seq.axes[a].confirmed =
          if p.shaper.axes[Axis.slot a].present then free a else p.seq.axes[a].confirmed := by
        have shown := p.readShown_confirmed a
        refine (Part.onAxes_confirmed _ _ a).trans ?_
        rw [show p.readShown.seeReadiness.seq.axes[a].confirmed = p.seq.axes[a].confirmed from shown]
        rfl
      have complete := Part.completeArming_onAxes (s := p.readShown.seeReadiness) (f := fun _ r x =>
        { x with confirmed := x.confirmed || !r.brakePresent }) rfl
      have all_iff : (∀ a : Axis, p.shaper.axes[Axis.slot a].present = true →
          (p.readShown.seeReadiness.seq.axes[a].confirmed || !p.shaper.axes[Axis.slot a].brakePresent) = true) ↔
          ∀ a : Axis, p.shaper.axes[Axis.slot a].present = true → free a = true :=
        forall_congr' fun a => by
          rw [show p.readShown.seeReadiness.seq.axes[a].confirmed = p.seq.axes[a].confirmed from p.readShown_confirmed a]
      by_cases released : ∀ a : Axis, p.shaper.axes[Axis.slot a].present = true → free a = true
      · rw [complete.1 (all_iff.mpr released)]
        exact ⟨rfl, rfl, rfl, confirms, fun _ => p.readShown.seeReadiness.enterHolding_onAxes _,
          fun some => absurd released some⟩
      · rw [complete.2 (mt all_iff.mp released)]
        exact ⟨rfl, rfl, rfl, confirms, fun all => absurd all released, fun _ => ⟨arming, rfl⟩⟩
  · rw [Part.sequencerReading_release arming started]
    intro past released
    refine ⟨fun early => if_pos (Nat.not_lt.mp early), fun after => ?_⟩
    rw [Part.readRelease_past after]
    refine ⟨fun a => ?_, fun all => ?_, fun some => ?_⟩
    · rw [Part.completeArming_axes, Part.onAxes_confirmed]
    · rw [(Part.completeArming_onAxes ready).1 all]
      exact p.enterHolding_onAxes _
    · rw [(Part.completeArming_onAxes ready).2 some]
      exact ⟨arming, rfl⟩

end Sys2Proof.Machine
end

section
/-! SETTLED. The stop sequencer's timers, as commands and at the serving of a cycle. -/

namespace Sys2Proof.Machine

section
variable {s : Part}

/-- The lowest present motion slot with a property. -/
theorem Part.lowestAxis_eq {bad : SequencerAxis → Bool} {a : Axis}
    (present : s.shaper.axes[Axis.slot a].present = true) (found : bad s.seq.axes[a] = true)
    (lowest : ∀ b : Axis, b.val < a.val →
      ¬ (s.shaper.axes[Axis.slot b].present = true ∧ bad s.seq.axes[b] = true)) : s.lowestAxis bad = a.val := by
  have find : s.shaper.motion.find? (fun b => bad s.seq.axes[b]) = some a := by
    rw [Shaper.motion, List.find?_filter, List.find?_eq_some_iff_getElem]
    refine ⟨decide_eq_true ⟨present, found⟩, a.val, by simp [allAxes], by simp [allAxes], fun j below => ?_⟩
    simp only [allAxes, List.getElem_finRange, Fin.cast_mk, Bool.not_eq_true', decide_eq_false_iff_not]
    exact lowest ⟨j, by omega⟩ below
  rw [Part.lowestAxis, find]

/-- R93, R96, R101: a Hard cause posted outside Safe-Off. -/
theorem Part.post_hard (on : s.seq.state ≠ .safeOff) (kind : CauseKind) (detail : Nat) :
    (s.post kind .hard detail).seq.state = .safeOff ∧ (s.post kind .hard detail).seq.chainClosed = false ∧
      (s.post kind .hard detail).seq.causes.getLsbD kind.bit = true ∧
      (s.post kind .hard detail).seq.firstCause = some (s.seq.firstCause.getD ⟨kind, detail⟩) := by
  have state := s.post_state kind .hard detail
  refine ⟨state, ((Part.transition_tabled _ .hard).opened state on).1, ?_, s.post_firstCause kind .hard detail⟩
  rw [Part.post_causes, beq_self_eq_true, Bool.or_true]

/-- R95: the timer confirmations of Braking. -/
theorem Part.checkBrakeTimer_due (braking : s.seq.state = .braking)
    (due : s.shaper.timing.brakeTimer ≤ s.seq.phaseCount) :
    s.checkBrakeTimer = (s.onAxes fun _ r x =>
      { x with confirmed := x.confirmed || (r.brakePresent && r.confirm != .feedback) }).completeBraking := by
  rw [Part.checkBrakeTimer, if_pos ⟨braking, due⟩]
  simp only [ConfirmMode.byTimer_eq]

/-- R101: the timer confirmations of Arming. -/
theorem Part.checkReleaseTimer_due (arming : s.seq.state = .arming) (ready : s.seq.readiness = true)
    (due : s.shaper.timing.brakeTimer ≤ s.seq.releaseServed) :
    s.checkReleaseTimer = (s.onAxes fun _ r x =>
      { x with confirmed := x.confirmed || (r.brakePresent && r.confirm != .feedback) }).completeArming := by
  rw [Part.checkReleaseTimer, if_pos ⟨arming, ready, due⟩]
  simp only [ConfirmMode.byTimer_eq]

theorem Part.countRelease_eq (s : Part) : s.countRelease = { s with seq := { s.seq with
    releaseServed := if s.seq.releaseStart = none then s.seq.releaseServed
      else min 65535 (s.seq.releaseServed + 1) } } := by
  unfold Part.countRelease
  cases s.seq.releaseStart <;> rfl

end

/-- Settles O36: each timeout by the cause it posts, each timer by the axes it confirms, and the serving by the
functions of the commands. -/
theorem sequencerTimers : Obligations.SequencerTimers := by
  unfold Obligations.SequencerTimers
  refine ⟨fun s => ⟨fun settling due => ?_, fun braking due a lowest => ?_, fun arming due => ?_⟩,
    fun s => ⟨fun braking due => ?_, fun arming ready due => ?_⟩, fun p waiting => ⟨fun settling => ?_,
      fun braking => ⟨p.countPhase.checkBrakeTimer, rfl, ?_⟩, fun arming => ?_, fun idle => ?_⟩⟩
  · have on : s.part.seq.state ≠ .safeOff := by rw [settling]; exact StopState.noConfusion
    obtain ⟨state, chain, causes, first⟩ := Part.post_hard on .stillTimeout
      (s.part.lowestAxis fun x => decide (x.stillRun < s.part.shaper.timing.stillDwell))
    refine ⟨_, rfl, ?_⟩
    rw [Part.checkStillTimeout, if_pos ⟨settling, due⟩]
    refine ⟨state, chain, causes, fun a lowest => ?_⟩
    obtain ⟨present, short, least⟩ := lowest
    rw [first, Part.lowestAxis_eq present (decide_eq_true short) fun b below found =>
      least b below ⟨found.1, of_decide_eq_true found.2⟩]
  · have on : s.part.seq.state ≠ .safeOff := by rw [braking]; exact StopState.noConfusion
    obtain ⟨present, unconfirmed, least⟩ := lowest
    have some : (!s.part.allConfirmed) = true := by
      rw [Bool.not_eq_true', Bool.eq_false_iff]
      intro all
      exact Bool.false_ne_true (unconfirmed.symm.trans ((Part.allConfirmed_iff _).mp all a present))
    obtain ⟨state, chain, causes, first⟩ := Part.post_hard on .brakeTimeout
      (s.part.lowestAxis fun x => !x.confirmed)
    refine ⟨_, rfl, ?_⟩
    rw [Part.checkBrakeTimeout, if_pos ⟨braking, due, some⟩]
    refine ⟨state, chain, causes, ?_⟩
    rw [first, Part.lowestAxis_eq present (Bool.not_eq_true' _ |>.mpr unconfirmed) fun b below found =>
      least b below ⟨found.1, Bool.not_eq_true' _ |>.mp found.2⟩]
  · have on : s.part.seq.state ≠ .safeOff := by rw [arming]; exact StopState.noConfusion
    obtain ⟨state, chain, causes, first⟩ := Part.post_hard on .armFail
      (if s.part.seq.readiness then s.part.lowestAxis fun x => !x.confirmed else s.part.lowestAxis fun x => !x.shown)
    refine ⟨_, rfl, ?_⟩
    rw [Part.checkArmingTimeout, if_pos ⟨arming, due⟩]
    refine ⟨state, chain, causes, fun ready a lowest => ?_, fun unready a lowest => ?_⟩
    all_goals obtain ⟨present, short, least⟩ := lowest
    · rw [first, if_pos ready, Part.lowestAxis_eq present (Bool.not_eq_true' _ |>.mpr short) fun b below found =>
        least b below ⟨found.1, Bool.not_eq_true' _ |>.mp found.2⟩]
    · rw [first, if_neg (Bool.eq_false_iff.mp unready), Part.lowestAxis_eq present (Bool.not_eq_true' _ |>.mpr short)
        fun b below found => least b below ⟨found.1, Bool.not_eq_true' _ |>.mp found.2⟩]
  · refine ⟨_, rfl, ?_⟩
    rw [Part.checkBrakeTimer_due braking due]
    refine ⟨fun all => (s.part.completeBraking_onAxes _).1 all, fun some => ?_⟩
    rw [(s.part.completeBraking_onAxes _).2 some]
    exact ⟨braking, rfl, s.part.onAxes_confirmed _⟩
  · refine ⟨_, rfl, ?_⟩
    rw [Part.checkReleaseTimer_due arming ready due]
    refine ⟨fun all => ?_, fun some => ?_⟩
    · rw [(Part.completeArming_onAxes ready).1 all]
      exact ⟨rfl, rfl, (s.part.enterHolding_onAxes _).2.2.2⟩
    · rw [(Part.completeArming_onAxes ready).2 some]
      exact ⟨arming, rfl, s.part.onAxes_confirmed _⟩
  · rw [Part.sequencerServing, settling]
    rfl
  · rw [Part.sequencerServing, braking]
    rfl
  · refine ⟨p.countPhase.countRelease.checkReleaseTimer, ?_, ?_⟩
    · rw [Part.countRelease_eq]
      rfl
    · rw [Part.sequencerServing, arming]
      rfl
  · rw [Part.sequencerServing]
    rcases idle with state | state | state | state <;> rw [state]

end Sys2Proof.Machine
end

section
/-! SETTLED. Lens Mode Set and Lens Commit. -/

namespace Sys2Proof.Machine

/-! ### Lens Mode Set -/

/-- The Focus channel is recorded while a request that holds a ticket stands in the list of the player, where the
conditions of the statement do not look. -/
def strayMode : Part :=
  { strayStop with
    array := { strayStop.array with
      directory := strayStop.array.directory.set 0
        { DirectorySlot.reset with info := { DirectorySlot.reset.info with mask := 0x100#12 } } } }

theorem strayMode_room : strayMode.Room where
  room := by decide
  fresh := by intro e he; exact absurd he List.not_mem_nil
  jobs := by intro n hn; exact absurd hn List.not_mem_nil

/-- The closing of the take makes the controller turn the stray request away, which answers the reply of the
Lens Mode Set. -/
theorem strayMode_tail :
    (strayMode.serveLensModeSet 0 8 1).lane.tail = some ⟨0, 0, 0x40#8, some ⟨.wrongState, []⟩⟩ := by decide +kernel

/-- Refutes O46: the conditions say nothing of the lists of the player and the recorder. -/
theorem not_lensModeSetResult : ¬ Obligations.LensModeSetResult := by
  unfold Obligations.LensModeSetResult
  intro holds
  have recorded := (holds.2 0 0 .direct ⟨strayMode, []⟩ strayMode_room (by decide) (by decide) (by decide)).2
    ⟨by decide, 0, by decide, by decide +kernel⟩
  obtain ⟨t, left, tail, -⟩ := recorded.1 (by decide)
  have part : strayMode.serveLensModeSet 0 8 1 = t := congrArg State.part (Host.Outcome.next.inj left)
  rw [← part, strayMode_tail] at tail
  exact absurd tail (by decide)

/-! ### Lens Commit -/

/-- Neighbours stand in an order, by their places. -/
theorem ordered_iff (lt : StagingEntry → StagingEntry → Bool) (es : List StagingEntry) :
    ordered lt es = true ↔ ∀ k (below : k + 1 < es.length), lt es[k] es[k + 1] = true := by
  induction es with
  | nil => simp [ordered]
  | cons a es ih =>
    cases es with
    | nil => simp [ordered]
    | cons b es =>
      rw [ordered, Bool.and_eq_true, ih]
      constructor
      · rintro ⟨first, rest⟩ (_ | k) below
        · exact first
        · exact rest k (by simpa using below)
      · exact fun all => ⟨all 0 (by simp), fun k below => all (k + 1) (by simpa using below)⟩

section
variable (c : LensChannel) {n : Nat}

theorem LensChannel.stagedRun_length (most : n ≤ 64) : (c.stagedRun n).length = n := by
  simp [LensChannel.stagedRun, most]

theorem LensChannel.stagedRun_getElem {k : Nat} (below : k < (c.stagedRun n).length) (lt : k < 64) :
    (c.stagedRun n)[k] = c.staging[k] := by simp [LensChannel.stagedRun]

theorem LensChannel.stagedRun_all (most : n ≤ 64) (p : StagingEntry → Bool) :
    (c.stagedRun n).all p = true ↔ ∀ i : Fin 64, i.val < n → p c.staging[i] = true := by
  rw [List.all_eq_true]
  constructor
  · intro all i below
    have place : i.val < (c.stagedRun n).length := by rw [c.stagedRun_length most]; exact below
    have entry := c.stagedRun_getElem place i.isLt
    exact entry ▸ all _ (List.getElem_mem place)
  · intro all e member
    obtain ⟨k, place, rfl⟩ := List.getElem_of_mem member
    have below : k < n := by rw [c.stagedRun_length most] at place; exact place
    rw [c.stagedRun_getElem place (by omega)]
    exact all ⟨k, by omega⟩ below

theorem LensChannel.stagedRun_ordered (most : n ≤ 64) (lt : StagingEntry → StagingEntry → Bool) :
    ordered lt (c.stagedRun n) = true ↔
      ∀ i j : Fin 64, i.val + 1 = j.val ∧ j.val < n → lt c.staging[i] c.staging[j] = true := by
  rw [ordered_iff]
  have length := c.stagedRun_length most
  constructor
  · rintro all i ⟨j, small⟩ ⟨rfl, below⟩
    dsimp only at below
    have step := all i.val (by omega)
    rw [c.stagedRun_getElem _ i.isLt, c.stagedRun_getElem _ small] at step
    exact step
  · intro all k below
    have small : k + 1 < 64 := by omega
    rw [c.stagedRun_getElem _ (by omega), c.stagedRun_getElem _ small]
    exact all ⟨k, by omega⟩ ⟨k + 1, small⟩ ⟨rfl, by dsimp only; omega⟩

/-- R111 step 2: the first n staging entries make a table. -/
theorem LensChannel.tableConsistent_iff (most : n ≤ 64) (a : AxisRecord) :
    tableConsistent (c.stagedRun n) a = true ↔
      (∀ i : Fin 64, i.val < n → c.staging[i].written = true ∧ a.pmin ≤ c.staging[i].count ∧
        c.staging[i].count ≤ a.pmax) ∧
      (∀ i j : Fin 64, i.val + 1 = j.val ∧ j.val < n → c.staging[i].phys < c.staging[j].phys) ∧
      ((∀ i j : Fin 64, i.val + 1 = j.val ∧ j.val < n → c.staging[i].count < c.staging[j].count) ∨
        (∀ i j : Fin 64, i.val + 1 = j.val ∧ j.val < n → c.staging[j].count < c.staging[i].count)) := by
  simp only [tableConsistent, Bool.and_eq_true, Bool.or_eq_true, c.stagedRun_all most, c.stagedRun_ordered most,
    decide_eq_true_iff, within_iff]
  constructor
  · rintro ⟨⟨⟨written, phys⟩, counts⟩, window⟩
    exact ⟨fun i below => ⟨written i below, window i below⟩, phys, counts⟩
  · rintro ⟨entries, phys, counts⟩
    exact ⟨⟨⟨fun i below => (entries i below).1, phys⟩, counts⟩, fun i below => (entries i below).2⟩

end

theorem LensMode.physical_iff (m : LensMode) : m.physical = true ↔ m = .map ∨ m = .follow := by cases m <;> decide

section
variable {s : Part}

theorem Part.commitReaches_iff (s : Part) (l : LensIx) (table : List LensPair) : s.commitReaches l table = true ↔
    (s.lane.mode = .run → s.shaper.axes[LensIx.slot l].present = true →
      (s.lens.chans[l].mode = .map ∨ s.lens.chans[l].mode = .follow) →
      s.shaper.chans[LensIx.slot l].InWindow
        (fineWindow (lensWindow s.shaper.axes[LensIx.slot l] s.lens.chans[l].mode table))
        s.shaper.axes[LensIx.slot l].amax) := by
  rw [Part.commitReaches, Bool.or_eq_true, Bool.not_eq_true', ← Bool.not_eq_true, ← Decidable.imp_iff_not_or, Bool.and_eq_true,
    Part.inRunPresent, Bool.and_eq_true, decide_eq_true_iff, LensMode.physical_iff, and_imp, and_imp, Channel.reaches,
    Bool.and_eq_true, within_iff, within_iff, and_assoc, Channel.InWindow]

theorem Part.requestLensCommit_range {channel n : Nat} (out : channel < 8 ∨ 12 ≤ channel ∨ n < 2 ∨ 64 < n) :
    s.requestLensCommit channel n = refuse s .range := by
  unfold Part.requestLensCommit
  by_cases lens : 8 ≤ channel ∧ channel < 12
  · rw [lensIxOf, dif_pos lens]
    exact if_pos (by omega)
  · rw [lensIxOf_eq_none lens]

theorem Part.requestLensCommit_judged (l : LensIx) {n : Nat} (least : 2 ≤ n) (most : n ≤ 64) :
    s.requestLensCommit (LensIx.slot l).val n =
      if !tableConsistent (s.lens.chans[l].stagedRun n) s.shaper.axes[LensIx.slot l] then refuse s .invalid
      else if !s.commitReaches l (pairsOf (s.lens.chans[l].stagedRun n)) then refuse s .unreachable
      else done (s.putLens l (s.lens.chans[l].commit (pairsOf (s.lens.chans[l].stagedRun n)))) := by
  unfold Part.requestLensCommit
  rw [show lensIxOf (LensIx.slot l).val = some l from lensIxOf_eq_some rfl]
  exact if_neg (by omega)

end

/-- Settles O48, answer by answer. -/
theorem lensCommitResult : Obligations.LensCommitResult := by
  unfold Obligations.LensCommitResult
  refine fun tag n s room => ⟨fun channel out => ?_, fun l least most => ?_⟩
  · exact exec_unchanged room rfl rfl rfl (Part.requestLensCommit_range out)
  have judged := Part.requestLensCommit_judged (s := s.part.reserving 0x42#8 tag) l least most
  have consistent := s.part.lens.chans[l].tableConsistent_iff most s.part.shaper.axes[LensIx.slot l]
  have reaches := (s.part.reserving 0x42#8 tag).commitReaches_iff l (pairsOf (s.part.lens.chans[l].stagedRun n))
  refine ⟨fun unsound => ?_, fun sound far => ?_, fun sound near => ?_⟩
  · refine exec_unchanged room rfl rfl rfl (judged.trans (if_pos ?_))
    rw [Bool.not_eq_true', Bool.eq_false_iff]
    exact mt consistent.mp unsound
  all_goals
    have judged := judged.trans (if_neg (by
      rw [Bool.not_eq_true', Bool.eq_false_iff]
      exact fun bad => bad (consistent.mpr sound)))
  · refine exec_unchanged room rfl rfl rfl (judged.trans (if_pos ?_))
    rw [Bool.not_eq_true', Bool.eq_false_iff]
    exact mt reaches.mp far
  · refine exec_answered room rfl rfl rfl (judged.trans (if_neg ?_)) rfl rfl
    rw [Bool.not_eq_true', Bool.eq_false_iff]
    exact fun bad => bad (reaches.mpr near)

end Sys2Proof.Machine
end

section
/-! SETTLED. The lens maps: interpolation between the points of a table, once for both maps, and the windows. -/

namespace Sys2Proof.Machine

/-! ### Interpolation between points with rising keys -/

/-- R114: the value at a key, clamped to the ends of a table of keys and values, interpolated between its points. -/
def interpolate : List (Int × Int) → Int → Int
  | [], _ => 0
  | [a], _ => a.2
  | a :: b :: rest, x =>
    if x < a.1 then a.2
    else if x < b.1 then a.2 + divRound ((b.2 - a.2) * (x - a.1)) (b.1 - a.1)
    else interpolate (b :: rest) x

theorem divRound_zero (d : Int) : divRound 0 d = 0 := by simp [divRound]

theorem divRound_neg_neg (n d : Int) : divRound (-n) (-d) = divRound n d := by
  simp only [divRound, Int.sign_neg, Int.natAbs_neg, Int.neg_mul_neg]

/-- A part y of d of the way from 0 to n ends between 0 and n. -/
theorem divRound_between {y d : Int} (n : Int) (low : 0 ≤ y) (high : y ≤ d) (pos : 0 < d) :
    min 0 n ≤ divRound (n * y) d ∧ divRound (n * y) d ≤ max 0 n := by
  obtain ⟨near, -⟩ := divRound_roundsTo (n := n * y) pos
  generalize divRound (n * y) d = k at near
  have below {m : Int} (under : m * d ≤ n * y) : m ≤ k := by
    refine Classical.byContradiction fun above => ?_
    have far : k * d ≤ (m - 1) * d := Int.mul_le_mul_of_nonneg_right (by omega) (Int.le_of_lt pos)
    rw [Int.sub_mul, Int.one_mul] at far
    omega
  have above {m : Int} (over' : n * y ≤ m * d) : k ≤ m := by
    refine Classical.byContradiction fun below => ?_
    have far : (m + 1) * d ≤ k * d := Int.mul_le_mul_of_nonneg_right (by omega) (Int.le_of_lt pos)
    rw [Int.add_mul, Int.one_mul] at far
    omega
  rcases Int.le_total n 0 with neg | nonneg
  · have full : n * d ≤ n * y := Int.mul_le_mul_of_nonpos_left neg high
    have none : n * y ≤ 0 * d := by rw [Int.zero_mul]; exact Int.mul_nonpos_of_nonpos_of_nonneg neg low
    have := below full
    have := above none
    omega
  · have full : n * y ≤ n * d := Int.mul_le_mul_of_nonneg_left high nonneg
    have none : 0 * d ≤ n * y := by rw [Int.zero_mul]; exact Int.mul_nonneg nonneg low
    have := above full
    have := below none
    omega

section
variable {l : List (Int × Int)} {a b : Int × Int} {x : Int}

/-- R114: at or below the first key. -/
theorem interpolate_head (rising : (a :: l).Pairwise fun p q => p.1 < q.1) (low : x ≤ a.1) :
    interpolate (a :: l) x = a.2 := by
  cases l with
  | nil => rfl
  | cons b l =>
    have next : a.1 < b.1 := List.rel_of_pairwise_cons rising (List.mem_cons_self ..)
    rw [interpolate]
    split
    · rfl
    · rw [if_pos (by omega), show x - a.1 = 0 by omega, Int.mul_zero, divRound_zero, Int.add_zero]

/-- R114: at or above the key of a point, the points before it do not count. -/
theorem interpolate_drop {before : List (Int × Int)} (rising : (before ++ a :: l).Pairwise fun p q => p.1 < q.1)
    (high : a.1 ≤ x) : interpolate (before ++ a :: l) x = interpolate (a :: l) x := by
  induction before with
  | nil => rfl
  | cons y before ih =>
    have rest := ih (List.Pairwise.of_cons rising)
    obtain ⟨z, tail, shape⟩ : ∃ z tail, before ++ a :: l = z :: tail :=
      List.exists_cons_of_ne_nil (by simp)
    have first : y.1 < z.1 := List.rel_of_pairwise_cons rising
      (show z ∈ before ++ a :: l by rw [shape]; exact List.mem_cons_self ..)
    have upto : z.1 ≤ a.1 := by
      cases before with
      | nil => cases shape; exact Int.le_refl _
      | cons w before =>
        cases shape
        exact Int.le_of_lt (List.rel_of_pairwise_cons (List.Pairwise.of_cons rising) (by simp))
    rw [List.cons_append, shape, interpolate, if_neg (by omega), if_neg (by omega), ← shape, rest]

/-- R114: exact at each point. -/
theorem interpolate_point (rising : l.Pairwise fun p q => p.1 < q.1) (point : a ∈ l) : interpolate l a.1 = a.2 := by
  obtain ⟨before, after, rfl⟩ := List.append_of_mem point
  rw [interpolate_drop rising (Int.le_refl _),
    interpolate_head (List.pairwise_append.mp rising).2.1 (Int.le_refl _)]

/-- R114: at or above the last key. -/
theorem interpolate_last (rising : l.Pairwise fun p q => p.1 < q.1) (last : l.getLast? = some a) (high : a.1 ≤ x) :
    interpolate l x = a.2 := by
  obtain ⟨before, rfl⟩ := List.getLast?_eq_some_iff.mp last
  rw [interpolate_drop rising high]
  rfl

/-- R114: between two neighbours, rounded half away from zero. -/
theorem interpolate_between {before after : List (Int × Int)}
    (rising : (before ++ a :: b :: after).Pairwise fun p q => p.1 < q.1) (low : a.1 ≤ x) (high : x < b.1) :
    RoundsTo ((b.2 - a.2) * (x - a.1)) (b.1 - a.1) (interpolate (before ++ a :: b :: after) x - a.2) := by
  rw [interpolate_drop rising low, interpolate, if_neg (by omega), if_pos high, Int.add_comm a.2, Int.add_sub_cancel]
  exact divRound_roundsTo (by omega)

/-- R114: between bounds of the values. -/
theorem interpolate_bounds {lo hi : Int} (rising : l.Pairwise fun p q => p.1 < q.1) (some : l ≠ [])
    (bounds : ∀ p ∈ l, lo ≤ p.2 ∧ p.2 ≤ hi) : lo ≤ interpolate l x ∧ interpolate l x ≤ hi := by
  induction l with
  | nil => exact absurd rfl some
  | cons a l ih =>
    have here := bounds a (List.mem_cons_self ..)
    cases l with
    | nil => exact here
    | cons b l =>
      have next : a.1 < b.1 := List.rel_of_pairwise_cons rising (List.mem_cons_self ..)
      have there := bounds b (List.mem_cons_of_mem _ (List.mem_cons_self ..))
      rw [interpolate]
      split
      · exact here
      split
      · have way := divRound_between (y := x - a.1) (d := b.1 - a.1) (b.2 - a.2) (by omega) (by omega) (by omega)
        omega
      · exact ih (List.Pairwise.of_cons rising) (List.cons_ne_nil _ _) fun p member =>
          bounds p (List.mem_cons_of_mem _ member)

end

/-! ### The maps of a table -/

/-- The points of a table by physical value. -/
def byPhys (t : List LensPair) : List (Int × Int) := t.map fun p => ((p.phys : Int), p.count)

/-- The points of a table by count. -/
def byCount (t : List LensPair) : List (Int × Int) := t.map fun p => (p.count, (p.phys : Int))

/-- The points of a table by count downward. -/
def byCountDown (t : List LensPair) : List (Int × Int) := t.map fun p => (-p.count, (p.phys : Int))

theorem forwardMap_eq {t : List LensPair} (some : t ≠ []) (x : Int) : forwardMap t x = interpolate (byPhys t) x := by
  induction t with
  | nil => exact absurd rfl some
  | cons a t ih =>
    cases t with
    | nil => rfl
    | cons b t =>
      have rest := ih (List.cons_ne_nil _ _)
      simp only [forwardMap, byPhys, List.map_cons, interpolate] at rest ⊢
      rw [rest]

theorem reverseMap_rising {t : List LensPair} (some : t ≠ []) (rising : t.Pairwise fun a b => a.count < b.count)
    (c : Int) : reverseMap t c = interpolate (byCount t) c := by
  induction t with
  | nil => exact absurd rfl some
  | cons a t ih =>
    cases t with
    | nil => rfl
    | cons b t =>
      have rest := ih (List.cons_ne_nil _ _) (List.Pairwise.of_cons rising)
      have next : a.count < b.count := List.rel_of_pairwise_cons rising (List.mem_cons_self ..)
      simp only [byCount, List.map_cons, interpolate] at rest ⊢
      rw [reverseMap, if_pos next, rest]

theorem reverseMap_falling {t : List LensPair} (some : t ≠ []) (falling : t.Pairwise fun a b => b.count < a.count)
    (c : Int) : reverseMap t c = interpolate (byCountDown t) (-c) := by
  induction t with
  | nil => exact absurd rfl some
  | cons a t ih =>
    cases t with
    | nil => rfl
    | cons b t =>
      have rest := ih (List.cons_ne_nil _ _) (List.Pairwise.of_cons falling)
      have next : b.count < a.count := List.rel_of_pairwise_cons falling (List.mem_cons_self ..)
      have turned : divRound (((b.phys : Int) - a.phys) * (c - a.count)) (b.count - a.count) =
          divRound (((b.phys : Int) - a.phys) * (-c - -a.count)) (-b.count - -a.count) := by
        have numerator : -(((b.phys : Int) - a.phys) * (c - a.count)) =
            ((b.phys : Int) - a.phys) * (-c - -a.count) := by grind
        have denominator : -(b.count - a.count) = -b.count - -a.count := by omega
        rw [← divRound_neg_neg, numerator, denominator]
      simp only [byCountDown, List.map_cons, interpolate, Int.neg_lt_neg_iff] at rest ⊢
      rw [reverseMap, if_neg (by omega), rest, turned]

section
variable {t : List LensPair}

theorem byPhys_rising (phys : t.Pairwise fun a b => a.phys < b.phys) :
    (byPhys t).Pairwise fun p q => p.1 < q.1 :=
  List.pairwise_map.mpr (phys.imp fun h => Int.ofNat_lt.mpr h)

theorem byCount_rising (rising : t.Pairwise fun a b => a.count < b.count) :
    (byCount t).Pairwise fun p q => p.1 < q.1 := List.pairwise_map.mpr rising

theorem byCountDown_rising (falling : t.Pairwise fun a b => b.count < a.count) :
    (byCountDown t).Pairwise fun p q => p.1 < q.1 :=
  List.pairwise_map.mpr (falling.imp fun h => Int.neg_lt_neg h)

/-- Every element of a list that rises stands between its ends. -/
theorem ends_bound {key : LensPair → Int} {a z p : LensPair} (rising : t.Pairwise fun a b => key a < key b)
    (first : t.head? = some a) (last : t.getLast? = some z) (member : p ∈ t) : key a ≤ key p ∧ key p ≤ key z := by
  obtain ⟨rest, rfl⟩ := List.head?_eq_some_iff.mp first
  refine ⟨?_, ?_⟩
  · rcases List.mem_cons.mp member with rfl | later
    · exact Int.le_refl _
    · exact Int.le_of_lt (List.rel_of_pairwise_cons rising later)
  · obtain ⟨before, shape⟩ := List.getLast?_eq_some_iff.mp last
    rw [shape] at rising member
    rcases List.mem_append.mp member with earlier | same
    · exact Int.le_of_lt ((List.pairwise_append.mp rising).2.2 p earlier z (List.mem_singleton_self z))
    · exact Int.le_of_eq (congrArg key (List.mem_singleton.mp same))

theorem exists_ends (some' : t ≠ []) : ∃ a z, t.head? = some a ∧ t.getLast? = some z ∧ a ∈ t ∧ z ∈ t :=
  ⟨t.head some', t.getLast some', List.head?_eq_some_head some', List.getLast?_eq_some_getLast some',
    List.head_mem some', List.getLast_mem some'⟩

/-- R106: the count range bounds the counts and is made of two of them. -/
theorem countRange_spec (some : t ≠ [])
    (order : t.Pairwise (fun a b => a.count < b.count) ∨ t.Pairwise fun a b => b.count < a.count) :
    (∀ p ∈ t, (countRange t).1 ≤ p.count ∧ p.count ≤ (countRange t).2) ∧
    (∃ p ∈ t, p.count = (countRange t).1) ∧ ∃ p ∈ t, p.count = (countRange t).2 := by
  obtain ⟨a, z, first, last, inA, inZ⟩ := exists_ends some
  have bounds (p : LensPair) (member : p ∈ t) : min a.count z.count ≤ p.count ∧ p.count ≤ max a.count z.count := by
    rcases order with rising | falling
    · have := ends_bound (key := LensPair.count) rising first last member
      omega
    · have := ends_bound (key := fun p => -p.count) (falling.imp fun h => Int.neg_lt_neg h) first last member
      omega
  have range : countRange t = (min a.count z.count, max a.count z.count) := by rw [countRange, first, last]
  rw [range]
  refine ⟨bounds, ?_, ?_⟩
  · rcases Int.le_total a.count z.count with le | le
    · exact ⟨a, inA, by dsimp only; omega⟩
    · exact ⟨z, inZ, by dsimp only; omega⟩
  · rcases Int.le_total a.count z.count with le | le
    · exact ⟨z, inZ, by dsimp only; omega⟩
    · exact ⟨a, inA, by dsimp only; omega⟩

theorem physRange_spec (some : t ≠ []) (phys : t.Pairwise fun a b => a.phys < b.phys) :
    ∀ p ∈ t, (physRange t).1 ≤ p.phys ∧ (p.phys : Int) ≤ (physRange t).2 := by
  obtain ⟨a, z, first, last, -, -⟩ := exists_ends some
  intro p member
  have range : physRange t = ((a.phys : Int), (z.phys : Int)) := by rw [physRange, first, last]
  rw [range]
  exact ends_bound (key := fun p => (p.phys : Int)) (phys.imp fun h => Int.ofNat_lt.mpr h) first last member

/-! ### The maps between the ends, at the points and between neighbours -/

theorem forwardMap_bounds (some : t ≠ []) (phys : t.Pairwise fun a b => a.phys < b.phys)
    (order : t.Pairwise (fun a b => a.count < b.count) ∨ t.Pairwise fun a b => b.count < a.count) (x : Int) :
    (countRange t).1 ≤ forwardMap t x ∧ forwardMap t x ≤ (countRange t).2 := by
  rw [forwardMap_eq some]
  refine interpolate_bounds (byPhys_rising phys) (by simpa [byPhys] using some) fun p member => ?_
  obtain ⟨q, inT, rfl⟩ := List.mem_map.mp member
  exact (countRange_spec some order).1 q inT

theorem reverseMap_bounds (some : t ≠ []) (phys : t.Pairwise fun a b => a.phys < b.phys)
    (order : t.Pairwise (fun a b => a.count < b.count) ∨ t.Pairwise fun a b => b.count < a.count) (c : Int) :
    (physRange t).1 ≤ reverseMap t c ∧ reverseMap t c ≤ (physRange t).2 := by
  rcases order with rising | falling
  · rw [reverseMap_rising some rising]
    refine interpolate_bounds (byCount_rising rising) (by simpa [byCount] using some) fun p member => ?_
    obtain ⟨q, inT, rfl⟩ := List.mem_map.mp member
    exact physRange_spec some phys q inT
  · rw [reverseMap_falling some falling]
    refine interpolate_bounds (byCountDown_rising falling) (by simpa [byCountDown] using some) fun p member => ?_
    obtain ⟨q, inT, rfl⟩ := List.mem_map.mp member
    exact physRange_spec some phys q inT

theorem forwardMap_point {p : LensPair} (phys : t.Pairwise fun a b => a.phys < b.phys) (member : p ∈ t) :
    forwardMap t p.phys = p.count := by
  rw [forwardMap_eq (List.ne_nil_of_mem member)]
  exact interpolate_point (byPhys_rising phys) (List.mem_map_of_mem member)

theorem reverseMap_point {p : LensPair} (member : p ∈ t)
    (order : t.Pairwise (fun a b => a.count < b.count) ∨ t.Pairwise fun a b => b.count < a.count) :
    reverseMap t p.count = p.phys := by
  rcases order with rising | falling
  · rw [reverseMap_rising (List.ne_nil_of_mem member) rising]
    exact interpolate_point (byCount_rising rising)
      (List.mem_map_of_mem (f := fun p : LensPair => (p.count, (p.phys : Int))) member)
  · rw [reverseMap_falling (List.ne_nil_of_mem member) falling]
    exact interpolate_point (byCountDown_rising falling)
      (List.mem_map_of_mem (f := fun p : LensPair => (-p.count, (p.phys : Int))) member)

/-- Beyond the ends of a table whose points are turned into keys and values by f. -/
theorem interpolate_map_ends {f : LensPair → Int × Int} {a z : LensPair}
    (rising : (t.map f).Pairwise fun p q => p.1 < q.1) (first : t.head? = some a) (last : t.getLast? = some z)
    (x : Int) : (x ≤ (f a).1 → interpolate (t.map f) x = (f a).2) ∧
      ((f z).1 ≤ x → interpolate (t.map f) x = (f z).2) := by
  constructor
  · intro low
    obtain ⟨rest, rfl⟩ := List.head?_eq_some_iff.mp first
    exact interpolate_head rising low
  · exact interpolate_last rising (by rw [List.getLast?_map, last]; rfl)

/-- Between two neighbours of a table whose points are turned into keys and values by f. -/
theorem interpolate_map_between {f : LensPair → Int × Int} {before after : List LensPair} {a b : LensPair} {x : Int}
    (rising : ((before ++ a :: b :: after).map f).Pairwise fun p q => p.1 < q.1) (low : (f a).1 ≤ x)
    (high : x < (f b).1) :
    RoundsTo (((f b).2 - (f a).2) * (x - (f a).1)) ((f b).1 - (f a).1)
      (interpolate ((before ++ a :: b :: after).map f) x - (f a).2) := by
  rw [List.map_append, List.map_cons, List.map_cons] at rising ⊢
  exact interpolate_between rising low high

/-- R108: the effective window in Map and Follow. -/
theorem lensWindow_physical {ax : AxisRecord} {mode : LensMode} {lo hi : Int} (some : t ≠ [])
    (order : t.Pairwise (fun a b => a.count < b.count) ∨ t.Pairwise fun a b => b.count < a.count)
    (physical : mode = .map ∨ mode = .follow) (bounds : ∀ p ∈ t, lo ≤ p.count ∧ p.count ≤ hi)
    (least : ∃ p ∈ t, p.count = lo) (most : ∃ p ∈ t, p.count = hi) (window : ax.pmin ≤ ax.pmax) :
    lensWindow ax mode t =
      if ax.pmax < lo then (ax.pmax, ax.pmax) else if hi < ax.pmin then (ax.pmin, ax.pmin)
      else (max ax.pmin lo, min ax.pmax hi) := by
  have range : countRange t = (lo, hi) := by
    obtain ⟨inside, ⟨p, inP, atLo⟩, ⟨q, inQ, atHi⟩⟩ := countRange_spec some order
    obtain ⟨u, inU, atU⟩ := least
    obtain ⟨v, inV, atV⟩ := most
    have := bounds p inP
    have := bounds q inQ
    have := inside u inU
    have := inside v inV
    exact Prod.ext (by dsimp only; omega) (by dsimp only; omega)
  have ordered : lo ≤ hi := by
    obtain ⟨p, inP, -⟩ := least
    exact Int.le_trans (bounds p inP).1 (bounds p inP).2
  rw [lensWindow, if_pos ⟨(LensMode.physical_iff mode).mpr physical, some⟩, range]
  dsimp only
  by_cases above : ax.pmax < lo
  · rw [if_neg (by omega), if_pos above, if_pos above]
  by_cases below : hi < ax.pmin
  · rw [if_neg (by omega), if_neg above, if_neg above, if_pos below]
  · rw [if_pos (by omega), if_neg above, if_neg below]

end

/-- Settles O50: the maps are interpolations between points with rising keys. -/
theorem mapsStayInRange : Obligations.MapsStayInRange := by
  unfold Obligations.MapsStayInRange
  refine ⟨fun t two phys => ?_, fun ax t => ?_, fun s => ⟨fun a => ?_, fun l => ?_⟩⟩
  · intro rising falling order
    have some : t ≠ [] := by rintro rfl; exact absurd two (by decide)
    refine ⟨forwardMap_bounds some phys order, reverseMap_bounds some phys order,
      fun p member => ⟨forwardMap_point phys member, reverseMap_point member order⟩, ?_, ?_, ?_⟩
    · intro a z first last
      refine ⟨fun x => ?_, fun up c => ?_, fun down c => ?_⟩
      · rw [forwardMap_eq some]
        exact interpolate_map_ends (byPhys_rising phys) first last x
      · rw [reverseMap_rising some up]
        exact interpolate_map_ends (byCount_rising up) first last c
      · rw [reverseMap_falling some down]
        have ends := interpolate_map_ends (byCountDown_rising down) first last (-c)
        exact ⟨fun low => ends.1 (Int.neg_le_neg low), fun high => ends.2 (Int.neg_le_neg high)⟩
    · rintro before after a b rfl
      refine ⟨fun x low high => ?_, fun c up low high => ?_, fun c down low high => ?_⟩
      · rw [forwardMap_eq some]
        exact interpolate_map_between (byPhys_rising phys) low high
      · rw [reverseMap_rising some up]
        exact interpolate_map_between (byCount_rising up) low high
      · rw [reverseMap_falling some down]
        have between := interpolate_map_between (byCountDown_rising down) (Int.neg_le_neg low) (Int.neg_lt_neg high)
        rwa [show -c - -a.count = a.count - c by omega, show -b.count - -a.count = a.count - b.count by omega] at between
    · intro ax mode lo hi physical bounds least most window
      exact lensWindow_physical some order physical bounds least most window
  · exact ⟨rfl, rfl⟩
  · rw [Part.window, lensOf_motion]
  · rw [Part.window, lensOf_lens]

end Sys2Proof.Machine
end

section
/-! SETTLED. Camera sync: phase points and their marks, the edges of the sync line, the loss of the camera and the
synthesized edges. -/

namespace Sys2Proof.Machine

/-! ### Phase points -/

section
variable (p : Part) (edge : Nat)

theorem Part.marked_eq : p.marked = p.expirePhasePoint := rfl

theorem Part.marked_now : p.marked.now = p.now := p.expirePhasePoint_work.now

theorem Part.marked_sync :
    p.marked.sync = { p.sync with phasePoint := none, frameCount := p.sync.frameCount + 1 } :=
  p.expirePhasePoint_work.sync

theorem Part.expirePending_eq : p.expirePending = if p.sync.phasePoint = none then p else p.marked := by
  unfold Part.expirePending
  cases p.sync.phasePoint <;> rfl

theorem Part.expirePending_now : p.expirePending.now = p.now := by
  rw [p.expirePending_eq]
  split
  · rfl
  · exact p.marked_now

theorem frames_add_zero (n : BitVec 32) : n + 0 = n := BitVec.add_zero n

theorem Part.expirePending_sync : p.expirePending.sync = { p.sync with
    phasePoint := none, frameCount := p.sync.frameCount + if p.sync.phasePoint = none then 0 else 1 } := by
  rw [p.expirePending_eq]
  split
  next none => rw [frames_add_zero, ← none]
  next => exact p.marked_sync

/-- R129: a phase point that is set expires at once where its time is not later than now. -/
def Part.setPoint (q : Part) (now point : Nat) : Part :=
  if point ≤ now then q.marked else { q with sync := { q.sync with phasePoint := some point } }

theorem Part.schedulePhasePoint_eq :
    p.schedulePhasePoint edge = p.expirePending.setPoint p.now (edge + p.sync.zavg * p.sync.weight / 256) := by
  have zavg : p.expirePending.sync.zavg = p.sync.zavg := by rw [p.expirePending_sync]
  have weight : p.expirePending.sync.weight = p.sync.weight := by rw [p.expirePending_sync]
  rw [← zavg, ← weight, ← p.expirePending_now]
  rfl

/-- R129: scheduling a phase point is what the statements call the part once it is pointed. -/
theorem Part.pointed_eq : p.pointed edge = p.schedulePhasePoint edge := by
  rw [p.schedulePhasePoint_eq, p.expirePending_eq]
  rfl

theorem Part.pointed_now : (p.pointed edge).now = p.now := by
  rw [p.pointed_eq, p.schedulePhasePoint_eq, Part.setPoint]
  split
  · exact (Part.marked_now _).trans p.expirePending_now
  · exact p.expirePending_now

theorem Part.pointed_sync : (p.pointed edge).sync = { p.sync with
    phasePoint := if edge + p.sync.zavg * p.sync.weight / 256 ≤ p.now then none
      else some (edge + p.sync.zavg * p.sync.weight / 256)
    frameCount := p.sync.frameCount + (if p.sync.phasePoint = none then 0 else 1) +
      if edge + p.sync.zavg * p.sync.weight / 256 ≤ p.now then 1 else 0 } := by
  rw [p.pointed_eq, p.schedulePhasePoint_eq, Part.setPoint]
  split
  · rw [Part.marked_sync, p.expirePending_sync]
  · dsimp only
    rw [p.expirePending_sync, frames_add_zero]

end

/-! ### The sync line -/

section
variable {time : Nat} {s : State} {p : Part} {t interval r : Nat}

/-- R123, R126: the edges whose phase point is scheduled at once with them. -/
theorem Part.pointed_locked {u : SyncUnit} (now : Nat) : ∃ t : Part,
    (Part.schedulePhasePoint { p with now := now, sync := u } now) = t ∧
    t = Part.pointed { p with now := now, sync := u } now ∧ t.now = now ∧ t.sync = { u with
      phasePoint := if u.zavg * u.weight / 256 = 0 then none else some (now + u.zavg * u.weight / 256)
      frameCount := u.frameCount + (if u.phasePoint = none then 0 else 1) +
        (if u.zavg * u.weight / 256 = 0 then 1 else 0) } := by
  refine ⟨_, rfl, (Part.pointed_eq _ _).symm, ?_, ?_⟩
  · rw [← Part.pointed_eq, Part.pointed_now]
  · rw [← Part.pointed_eq, Part.pointed_sync]
    have atOnce (n : Nat) : now + n ≤ now ↔ n = 0 := by omega
    simp only [atOnce]

theorem Part.candidate_idle (idle : p.sync.reference = none ∨ p.sync.state = .absent ∨ p.sync.state = .lost) :
    p.candidate t = { p with sync := p.sync.firstEdge t } := by
  rw [Part.candidate]
  cases reference : p.sync.reference with
  | none => rfl
  | some r =>
    rcases idle with none | absent | lost
    · rw [none] at reference; nomatch reference
    · rw [absent]
    · rw [lost]

theorem Part.candidate_acquiring (reference : p.sync.reference = some r) (state : p.sync.state = .acquiring) :
    p.candidate t = p.edgeAcquiring t (t - r) := by rw [Part.candidate, reference, state]

theorem Part.candidate_locked (reference : p.sync.reference = some r) (state : p.sync.state = .locked) :
    p.candidate t = p.edgeLocked t (t - r) := by rw [Part.candidate, reference, state]

theorem Part.candidate_freewheel (reference : p.sync.reference = some r) (state : p.sync.state = .freewheel) :
    p.candidate t = p.edgeFreewheel t (t - r) := by rw [Part.candidate, reference, state]

theorem intervalInRange_iff : intervalInRange interval = true ↔ 4000 ≤ interval ∧ interval ≤ 50000 := by
  simp [intervalInRange]

/-- R125: the agreement run. -/
theorem SyncUnit.nextRun_eq (u : SyncUnit) : u.nextRun interval =
    if u.agreement ≠ 0 ∧ ((interval : Int) - u.zn).natAbs ≤ u.zn / 64 then u.agreement + 1 else 1 := by
  simp only [SyncUnit.nextRun, agrees, decide_eq_true_eq]
  by_cases none : u.agreement = 0
  · rw [if_pos none, if_neg fun h => h.1 none]
  · simp only [none, if_false, ne_eq, not_false_eq_true, true_and]

theorem Part.edgeAcquiring_out (out : ¬ (4000 ≤ interval ∧ interval ≤ 50000)) :
    p.edgeAcquiring t interval = { p with sync := p.sync.firstEdge t } := by
  rw [Part.edgeAcquiring, if_pos (by rw [Bool.not_eq_true', ← Bool.not_eq_true, intervalInRange_iff]; exact out)]

theorem Part.edgeAcquiring_in (inside : 4000 ≤ interval ∧ interval ≤ 50000) : p.edgeAcquiring t interval =
    if p.sync.nextRun interval = 3 then
      Part.schedulePhasePoint { p with sync :=
        { (SyncUnit.setLoss { p.sync.accept t interval with agreement := p.sync.nextRun interval } t) with
          state := .locked } } t
    else { p with sync := { p.sync.accept t interval with agreement := p.sync.nextRun interval } } := by
  rw [Part.edgeAcquiring, intervalInRange_iff.mpr inside]
  rfl

end

/-- Settles O51: by the state of the sync unit and the branches of the candidate. -/
theorem syncEdges : Obligations.SyncEdges := by
  unfold Obligations.SyncEdges
  intro time s now u first
  have edge {t : Part} (h : Part.candidate { s.part with now := now } now = t) :
      exec (.syncEdge time) s = .next { s with part := t } :=
    congrArg (fun p => (.next { s with part := p } : Host.Outcome State Fault Refusal)) h
  refine ⟨fun idle => edge (Part.candidate_idle (p := { s.part with now := now }) idle), ?_⟩
  intro r reference interval inRange zavg agreeing run locks
  let moved : Part := { s.part with now := now }
  have run_eq : u.nextRun interval = run := SyncUnit.nextRun_eq u
  refine ⟨fun state out => ?_, fun state inside short => ?_, fun state inside full => ?_, ?_, ?_, ?_, ?_⟩
  · exact edge ((Part.candidate_acquiring (p := moved) reference state).trans (Part.edgeAcquiring_out (p := moved) out))
  · refine edge ((Part.candidate_acquiring (p := moved) reference state).trans ?_)
    refine (Part.edgeAcquiring_in (p := moved) inside).trans ((if_neg fun three => short (run_eq.symm.trans three)).trans ?_)
    exact congrArg (fun n => { s.part with now := now, sync := { u.accept now interval with agreement := n } }) run_eq
  · obtain ⟨t, pointed, rest⟩ := Part.pointed_locked (p := s.part)
      (u := { u with state := .locked, zprev := u.zn, zn := interval, zavg := zavg, reference := some now,
                     agreement := 3, lossTime := some (now + 3 * zavg / 2) }) now
    refine ⟨t, edge (((Part.candidate_acquiring (p := moved) reference state).trans ?_).trans pointed), rest⟩
    refine (Part.edgeAcquiring_in (p := moved) inside).trans ((if_pos (run_eq.trans full)).trans ?_)
    exact congrArg (fun n => Part.schedulePhasePoint { s.part with now := now, sync :=
      { (SyncUnit.setLoss { u.accept now interval with agreement := n } now) with state := .locked } } now)
      (run_eq.trans full)
  · rintro (state | state) masked
    · refine edge ((Part.candidate_locked (p := moved) reference state).trans ?_)
      exact if_pos masked
    · refine edge ((Part.candidate_freewheel (p := moved) reference state).trans ?_)
      exact if_pos masked
  · intro state past out
    refine edge ((Part.candidate_locked (p := moved) reference state).trans ?_)
    exact (if_neg (Nat.not_lt.mpr past)).trans (if_neg fun inside => out (intervalInRange_iff.mp inside))
  · intro state past
    refine edge ((Part.candidate_freewheel (p := moved) reference state).trans ?_)
    exact if_neg (Nat.not_lt.mpr past)
  · intro state past inside
    obtain ⟨t, pointed, rest⟩ := Part.pointed_locked (p := s.part)
      (u := { u with state := .locked, zprev := u.zn, zn := interval, zavg := zavg, reference := some now,
                     agreement := u.agreement, lossTime := some (now + 3 * zavg / 2) }) now
    refine ⟨t, edge (((Part.candidate_locked (p := moved) reference state).trans ?_).trans pointed), rest⟩
    refine (if_neg (Nat.not_lt.mpr past)).trans ((if_pos (intervalInRange_iff.mpr inside)).trans ?_)
    exact congrArg (fun st => Part.schedulePhasePoint { s.part with now := now, sync :=
      { (SyncUnit.setLoss (u.accept now interval) now) with state := st } } now) state

/-! ### The timers of the sync unit -/

section
variable {time : Nat} {p : Part}

theorem Part.lossReached_eq (state : p.sync.state = .locked) (loss : p.sync.lossTime = some time) :
    p.lossReached = (p.advanceTo time).loseFrame := by rw [Part.lossReached, state, loss]

theorem Part.synthesisReached_eq (state : p.sync.state = .freewheel) (next : p.sync.nextSynth = some time) :
    p.synthesisReached = (p.advanceTo time).synthesizeEdge time := by rw [Part.synthesisReached, state, next]

theorem Part.phasePointReached_eq (point : p.sync.phasePoint = some time) :
    p.phasePointReached = (p.advanceTo time).expirePhasePoint := by rw [Part.phasePointReached, point]

/-- R128, R129: a synthesized edge whose phase point is scheduled with it. -/
theorem Part.pointed_synthesized {u : SyncUnit} (now edge : Nat) : ∃ t : Part,
    Part.schedulePhasePoint { p with now := now, sync := u } edge = t ∧
    t = Part.pointed { p with now := now, sync := u } edge ∧ t.now = now ∧ t.sync = { u with
      phasePoint := if edge + u.zavg * u.weight / 256 ≤ now then none else some (edge + u.zavg * u.weight / 256)
      frameCount := u.frameCount + (if u.phasePoint = none then 0 else 1) +
        (if edge + u.zavg * u.weight / 256 ≤ now then 1 else 0) } := by
  refine ⟨_, rfl, (Part.pointed_eq _ _).symm, ?_, ?_⟩
  · rw [← Part.pointed_eq, Part.pointed_now]
  · rw [← Part.pointed_eq, Part.pointed_sync]

end

/-- Settles O52: by the state of the sync unit and the timer that is reached. -/
theorem syncTimers : Obligations.SyncTimers := by
  unfold Obligations.SyncTimers
  intro time s u now synthesized
  have next {p t : Part} (h : p = t) : (.next { s with part := p } : Host.Outcome State Fault Refusal) =
      .next { s with part := t } :=
    congrArg (fun p => (.next { s with part := p } : Host.Outcome State Fault Refusal)) h
  refine ⟨fun state loss r reference => ?_, fun state synth seven => ?_, fun state synth notSeven => ?_,
    fun point => ?_⟩
  · obtain ⟨t, pointed, rest⟩ := Part.pointed_synthesized (p := s.part)
      (u := { u with state := .freewheel, reference := some (r + u.zavg), freewheel := 1, lossTime := none,
                     nextSynth := some (r + u.zavg + u.zavg) }) now (r + u.zavg)
    refine ⟨t, next (((Part.lossReached_eq state loss).trans ?_).trans pointed), rest⟩
    exact congrArg (fun r : Option Nat => Part.schedulePhasePoint { s.part with now := now, sync := { u with
      state := .freewheel, reference := some (r.getD 0 + u.zavg), freewheel := 1, lossTime := none,
      nextSynth := some (r.getD 0 + u.zavg + u.zavg) } } (r.getD 0 + u.zavg)) reference
  · refine next ((Part.synthesisReached_eq state synth).trans ?_)
    refine (if_pos (by rw [show (s.part.advanceTo time).sync.freewheel = 7 from seven])).trans ?_
    exact congrArg (fun n => { s.part with now := now, sync := { u with
      state := .lost, freewheel := n + 1, nextSynth := none, phasePoint := none } }) seven
  · obtain ⟨t, pointed, rest⟩ := Part.pointed_synthesized (p := s.part)
      (u := { u with state := .freewheel, reference := some time, freewheel := u.freewheel + 1,
                     nextSynth := some (time + u.zavg) }) now time
    refine ⟨t, next (((Part.synthesisReached_eq state synth).trans ?_).trans pointed), rest⟩
    refine (if_neg fun eight => notSeven (Nat.succ.inj eight)).trans ?_
    exact congrArg (fun st => Part.schedulePhasePoint { s.part with now := now, sync := { u with
      state := st, reference := some time, freewheel := u.freewheel + 1, nextSynth := some (time + u.zavg) } } time)
      state
  · refine ⟨Part.marked { s.part with now := now }, ?_, rfl, Part.marked_now _, Part.marked_sync _⟩
    exact next (Part.phasePointReached_eq point)

end Sys2Proof.Machine
end

section
/-! SETTLED. The lengths of the frames and the replies a return frame takes. -/

namespace Sys2Proof.Machine

@[simp] theorem spare_length (n : Nat) : (spare n).length = n := List.length_replicate

/-! ### Lengths -/

theorem flatMap_length_const {α : Type} (f : α → List Byte) (n : Nat) (each : ∀ a, (f a).length = n) (l : List α) :
    (l.flatMap f).length = l.length * n := by
  induction l with
  | nil => simp
  | cons a l ih => rw [List.flatMap_cons, List.length_append, each, ih, List.length_cons, Nat.succ_mul, Nat.add_comm]

theorem DriveSlot.bytes_length (d : DriveSlot) : d.bytes.length = 12 := by simp [DriveSlot.bytes]

theorem StatusBlock.bytes_length (b : StatusBlock) : b.bytes.length = 48 := by simp [StatusBlock.bytes, sourceBytes]

theorem DriveFrame.bytes_length (f : DriveFrame) : f.bytes.length = 152 := by
  simp [DriveFrame.bytes, withCheck_length, flatMap_length_const DriveSlot.bytes 12 DriveSlot.bytes_length]

theorem SentReply.bytes_length (r : SentReply) : r.bytes.length = r.size := by
  simp [SentReply.bytes, SentReply.size]; omega

theorem replies_length (l : List SentReply) : (l.flatMap SentReply.bytes).length = (l.map SentReply.size).sum := by
  simp only [List.length_flatMap, SentReply.bytes_length]

theorem ReturnFrame.bytes_length (f : ReturnFrame) :
    f.bytes.length = 106 + (f.replies.map SentReply.size).sum := by
  simp only [ReturnFrame.bytes, withCheck_length, List.length_append, leBytes_length, replies_length,
    flatMap_length_const (leBytesInt 4) 4 (leBytesInt_length 4), StatusBlock.bytes_length, Vector.length_toList]
  omega

/-! ### The replies of a return frame -/

/-- R16: what a return frame takes stood at the head of the queue, all Ready, and fits its room; the entry that then
stands at the head is Waiting or does not fit. -/
theorem takeReplies_spec (room : Nat) (q : List ReplyEntry) : ∃ taken : List ReplyEntry,
    q = taken ++ (takeReplies room q).2 ∧
    taken.map (fun e => (e.tag, e.kind, e.answer)) =
      (takeReplies room q).1.map (fun r => (r.tag, r.kind, some r.answer)) ∧
    ((takeReplies room q).1.map SentReply.size).sum ≤ room ∧
    (∀ e rest, (takeReplies room q).2 = e :: rest → e.answer = none ∨ ∃ a, e.answer = some a ∧
      room < ((takeReplies room q).1.map SentReply.size).sum + (6 + a.data.length)) := by
  induction q generalizing room with
  | nil => exact ⟨[], rfl, rfl, Nat.zero_le _, nofun⟩
  | cons e rest ih =>
    cases answer : e.answer with
    | none =>
      rw [takeReplies, answer]
      exact ⟨[], rfl, rfl, Nat.zero_le _, fun f _ same => .inl ((List.cons.inj same).1 ▸ answer)⟩
    | some a =>
      by_cases fits : (⟨e.tag, e.kind, a⟩ : SentReply).size ≤ room
      · obtain ⟨taken, whole, same, sizes, next⟩ := ih (room - (⟨e.tag, e.kind, a⟩ : SentReply).size)
        simp only [takeReplies, answer, if_pos fits, List.map_cons, List.sum_cons]
        refine ⟨e :: taken, by rw [List.cons_append, ← whole], by rw [List.map_cons, same, answer], by omega, ?_⟩
        intro f after head
        rcases next f after head with waiting | ⟨b, ready, long⟩
        · exact .inl waiting
        · exact .inr ⟨b, ready, by omega⟩
      · simp only [takeReplies, answer, if_neg fits]
        refine ⟨[], rfl, rfl, Nat.zero_le _, fun f _ same => .inr ⟨a, (List.cons.inj same).1 ▸ answer, ?_⟩⟩
        simpa [SentReply.size] using fits

/-- Settles O13: by the queue, as the frame takes its entries, and by the parts of each frame. -/
theorem repliesLeaveFromTheHead : Obligations.RepliesLeaveFromTheHead := by
  unfold Obligations.RepliesLeaveFromTheHead
  refine ⟨takeReplies_spec, fun f => ⟨DriveFrame.bytes_length f, checkGood_withCheck _⟩, StatusBlock.bytes_length,
    fun f => ⟨ReturnFrame.bytes_length f, checkGood_withCheck _⟩, fun q => ?_⟩
  obtain ⟨taken, -, -, sizes, -⟩ := takeReplies_spec replyRoom q
  exact sizes

end Sys2Proof.Machine
end

section
/-! SETTLED. Cycle frames that are not served: bad frames, and late ones with the answers to their lanes. -/

namespace Sys2Proof.Machine

/-! ### The answers to a late lane -/

/-- The answer that the record of a late lane is given. -/
def LaneRecord.lateCode (r : LaneRecord) : ResultCode :=
  if Instr.isMalformed r.command then .badRecord else .late

/-- A record that is refused outright changes the service lane unit only: one more Ready entry where the queue has
room. -/
theorem serveRequest_refuse (kind tag : Byte) (code : ResultCode) (s : Part) : ∃ l : ServiceLane,
    serveRequest kind tag (fun _ p => refuse p code) s = { s with lane := l } ∧ l.mode = s.lane.mode ∧
    (s.lane.queue.length < 32 → (∀ e ∈ s.lane.queue, e.ticket < s.lane.nextTicket) →
      l = s.lane.push kind tag ⟨code, []⟩) := by
  unfold serveRequest
  split
  next full => exact ⟨s.lane.drop, rfl, rfl, fun room => absurd full (Nat.not_le.mpr room)⟩
  next => exact ⟨_, rfl, rfl, fun _ fresh => ServiceLane.answer_reserve _ _ _ _ fresh⟩

theorem Part.readLateLane_cons (r : LaneRecord) (rs : List LaneRecord) (s : Part) : Part.readLateLane (r :: rs) s =
    Part.readLateLane rs (serveRequest r.kind r.tag (fun _ p => refuse p r.lateCode) s) := by
  rw [Part.readLateLane, LaneRecord.lateCode]
  split <;> rfl

/-- R3: the records of a late lane change the service lane unit only; with room for all of them each leaves its
answer in their order. -/
theorem Part.readLateLane_lane (rs : List LaneRecord) (s : Part) : ∃ l : ServiceLane,
    Part.readLateLane rs s = { s with lane := l } ∧ l.mode = s.lane.mode ∧
    (s.lane.queue.length + rs.length ≤ 32 → (∀ e ∈ s.lane.queue, e.ticket < s.lane.nextTicket) →
      l.dropped = s.lane.dropped ∧ l.queue.map (fun e => (e.tag, e.kind, e.answer)) =
        s.lane.queue.map (fun e => (e.tag, e.kind, e.answer)) ++
          rs.map fun r => (r.tag, r.kind, some ⟨r.lateCode, []⟩)) := by
  induction rs generalizing s with
  | nil => exact ⟨s.lane, rfl, rfl, fun _ _ => ⟨rfl, (List.append_nil _).symm⟩⟩
  | cons r rs ih =>
    obtain ⟨l, first, mode, pushed⟩ := serveRequest_refuse r.kind r.tag r.lateCode s
    obtain ⟨m, rest, mode', entries⟩ := ih { s with lane := l }
    refine ⟨m, by rw [Part.readLateLane_cons, first, rest], mode'.trans mode, fun room fresh => ?_⟩
    rw [List.length_cons] at room
    have l_eq := pushed (by omega) fresh
    subst l_eq
    obtain ⟨dropped, queue⟩ := entries
      (by simp only [ServiceLane.push, List.length_append, List.length_singleton]; omega)
      (fun e member => by
        rcases List.mem_append.mp member with old | new
        · exact Nat.lt_succ_of_lt (fresh e old)
        · rw [List.mem_singleton.mp new]; exact Nat.lt_succ_self _)
    refine ⟨dropped, ?_⟩
    rw [queue, ServiceLane.push, List.map_append, List.append_assoc]
    rfl

/-! ### Frames not served -/

section
variable {p : Part} {frame : List Byte} {f : CycleFrame}

/-- R1: a bad frame. -/
theorem CycleFrame.ofBytes_bad (bad : frame.length < 56 ∨ 1536 < frame.length ∨ checkGood frame = false) :
    CycleFrame.ofBytes frame = none := by
  refine if_neg ?_
  rintro ⟨least, most, good⟩
  rw [good] at bad
  rcases bad with short | long | ⟨⟨⟩⟩ <;> omega

theorem frameArrived_bad (bad : CycleFrame.ofBytes frame = none) : p.frameArrived frame = p.discardFrame := by
  rw [Part.frameArrived, bad]

theorem frameArrived_late (read : CycleFrame.ofBytes frame = some f) (late : p.gateway.accepts f.cycle = false) :
    p.frameArrived frame = p.lateFrame f := by
  rw [Part.frameArrived, read]
  dsimp only
  rw [late]
  rfl

end

/-- Settles O7: a bad frame by its reading, a late one by its records in order. -/
theorem framesNotServed : Obligations.FramesNotServed := by
  unfold Obligations.FramesNotServed
  refine ⟨fun time frame s bad => ?_, fun time frame f s read late => ?_⟩
  · exact congrArg (fun p => (.next { s with part := p } : Host.Outcome State Fault Refusal))
      (frameArrived_bad (p := s.part.advanceTo time) (CycleFrame.ofBytes_bad bad))
  · obtain ⟨l, whole, mode, entries⟩ := Part.readLateLane_lane (laneRecords f.lane)
      { s.part.advanceTo time with gateway :=
        { s.part.gateway with lateCount := bump255 s.part.gateway.lateCount } }
    refine ⟨l, ?_, mode, entries⟩
    exact congrArg (fun p => (.next { s with part := p } : Host.Outcome State Fault Refusal))
      ((frameArrived_late (p := s.part.advanceTo time) read late).trans whole)

end Sys2Proof.Machine
end

section
/-! SETTLED. Drive frames that come back: a refutation of what they are said to leave, drive faults and the following
check. -/

namespace Sys2Proof.Machine

/-! ### A request that the return of a drive frame answers -/

/-- A drive frame of number 46, every slot answered at a count of 0. -/
def strayFrame : List Byte :=
  withCheck (leBytes 2 46 ++ spare 2 ++ (List.replicate 12 (spare 5 ++ [1#8] ++ spare 6)).flatten)

/-- The drive frame that is outstanding: every setpoint at 100. -/
def strayOutstanding : Outstanding := ⟨46, Vector.replicate 12 100, Vector.replicate 12 true⟩

/-- A take is recorded while a request whose reply is Waiting stands in the list of the player, where the statement
does not look, and an axis follows by at most 99. -/
def strayDrive : Part :=
  { strayStop with
    lane := { strayStop.lane with mode := .run, queue := [⟨0, 0, 0, none⟩], nextTicket := 1 }
    gateway := { strayStop.gateway with outstanding := some strayOutstanding }
    shaper := { strayStop.shaper with axes := (strayStop.shaper.axes.set 1
      { AxisRecord.reset 1 with present := true, following := 99, followCount := 1 }) } }

/-- What stands in the frame. -/
def strayReturn : DriveReturn := ⟨46, Vector.replicate 12 ⟨⟨true, false, false, false, false⟩, 0⟩⟩

theorem strayFrame_slots : ∀ c : Slot,
    DriveStatus.ofByte (byteAt strayFrame (9 + 12 * c.val)) = ⟨true, false, false, false, false⟩ ∧
    fieldInt strayFrame (12 + 12 * c.val) 4 = 0 := by decide +kernel

theorem strayFrame_read : DriveReturn.ofBytes strayFrame = some strayReturn := by
  have slots : Vector.ofFn (fun c : Slot => (⟨DriveStatus.ofByte (byteAt strayFrame (9 + 12 * c.val)),
      fieldInt strayFrame (12 + 12 * c.val) 4⟩ : DriveReply)) = strayReturn.slots := by
    ext i h : 1
    rw [Vector.getElem_ofFn, (strayFrame_slots ⟨i, h⟩).1, (strayFrame_slots ⟨i, h⟩).2]
    exact (Vector.getElem_replicate h).symm
  refine (if_pos ⟨by decide +kernel, checkGood_withCheck _⟩).trans ?_
  rw [slots]
  have number : BitVec.ofNat 16 (fieldNat strayFrame 0 2) = strayReturn.cycle := by decide +kernel
  rw [number]

/-- Following stops the crane, which closes the take; the controller then turns the stray request away, and the
return frame takes its reply. -/
theorem strayDrive_queue : (strayDrive.takeDriveFrame strayOutstanding strayReturn).lane.queue = [] := by
  decide +kernel

theorem strayDrive_outstanding : strayDrive.gateway.outstanding = some strayOutstanding := by
  unfold strayDrive
  rfl

theorem strayDrive_laneJobs : strayDrive.array.laneJobs = [] := by
  unfold strayDrive strayStop
  rfl

theorem exec_driveFrameReturn (frame : List Byte) (s : State) :
    exec (.driveFrameReturn frame) s = .next { s with part := s.part.driveReturned frame } := rfl

/-- R12: the drive frame of the outstanding number is taken. -/
theorem Part.driveReturned_taken {p : Part} {frame : List Byte} {o : Outstanding} {d : DriveReturn}
    (outstanding : p.gateway.outstanding = some o) (read : DriveReturn.ofBytes frame = some d)
    (number : d.cycle = o.cycle) : p.driveReturned frame = p.takeDriveFrame o d := by
  rw [Part.driveReturned, outstanding, read]
  exact if_pos number

/-- Refutes O11: the condition under which the replies are those of the queue before speaks of the lane's list only. -/
theorem not_driveFrameTaken : ¬ Obligations.DriveFrameTaken := by
  unfold Obligations.DriveFrameTaken
  intro holds
  obtain ⟨t, r, left, -, -, -, -, -, -, replies, -⟩ :=
    holds.1 strayFrame strayOutstanding strayReturn ⟨strayDrive, []⟩ strayDrive_outstanding strayFrame_read rfl
  have part : strayDrive.takeDriveFrame strayOutstanding strayReturn = t := by
    rw [exec_driveFrameReturn, Part.driveReturned_taken strayDrive_outstanding strayFrame_read rfl] at left
    exact congrArg State.part (Host.Outcome.next.inj left)
  have queue := (replies (.inl strayDrive_laneJobs)).2
  rw [← part, strayDrive_queue] at queue
  exact absurd queue (by decide)

end Sys2Proof.Machine
end

section
/-! SETTLED. Causes posted one after another, what keeps the shaped states, drive faults and the following check. -/

namespace Sys2Proof.Machine

/-! ### What keeps the shaped states -/

/-- Every channel stands where it stood, at its velocity, with its following run. -/
def Part.Stands (s t : Part) : Prop := ∀ c : Slot, t.shaper.chans[c].p = s.shaper.chans[c].p ∧
  t.shaper.chans[c].v = s.shaper.chans[c].v ∧ t.shaper.chans[c].followRun = s.shaper.chans[c].followRun

section
variable {s t u : Part}

theorem Part.Stands.refl (s : Part) : s.Stands s := fun _ => ⟨rfl, rfl, rfl⟩

theorem Part.Stands.trans (h : s.Stands t) (k : t.Stands u) : s.Stands u := fun c => by
  obtain ⟨hp, hv, hr⟩ := h c
  obtain ⟨kp, kv, kr⟩ := k c
  exact ⟨kp.trans hp, kv.trans hv, kr.trans hr⟩

theorem Part.Stands.of_shaper (same : t.shaper = s.shaper) : s.Stands t := fun c => by rw [same]; exact ⟨rfl, rfl, rfl⟩

/-- A change of the motion channels that leaves their shaped states. -/
theorem Part.Stands.onMotion {f : AxisRecord → Channel → Channel} (same : t.shaper = s.shaper.onMotion f)
    (keeps : ∀ a ch, (f a ch).p = ch.p ∧ (f a ch).v = ch.v ∧ (f a ch).followRun = ch.followRun) : s.Stands t := fun c => by
  rw [same, Shaper.onMotion_get]
  split
  · exact keeps _ _
  · exact ⟨rfl, rfl, rfl⟩

theorem Part.enterSafeOff_stands (s : Part) : s.Stands s.enterSafeOff :=
  .onMotion (f := fun _ c => c.withSource .track) rfl fun _ _ => ⟨rfl, rfl, rfl⟩

theorem Part.enterHolding_stands (s : Part) : s.Stands s.enterHolding :=
  .onMotion (f := fun _ c => c.parkAt c.p) rfl fun _ _ => ⟨rfl, rfl, rfl⟩

theorem Part.enterRamping_stands (s : Part) (category : InForce) : s.Stands (s.enterRamping category) :=
  .onMotion (f := fun a c => { c with source := .stop, rampDecel := a.astop }) rfl fun _ _ => ⟨rfl, rfl, rfl⟩

theorem Part.completeBraking_stands (s : Part) : s.Stands s.completeBraking := by
  unfold Part.completeBraking
  split
  · exact s.enterSafeOff_stands
  · exact .refl s

theorem Part.completeArming_stands (s : Part) : s.Stands s.completeArming := by
  unfold Part.completeArming
  split
  · exact s.enterHolding_stands
  · exact .refl s

theorem Part.enterBraking_stands (s : Part) : s.Stands s.enterBraking :=
  .trans (t := s.beginBraking) (.of_shaper rfl) s.beginBraking.completeBraking_stands

theorem Part.leaveRunning_stands (s : Part) : s.Stands s.leaveRunning := by
  have resume : s.Stands { s with shaper := s.shaper.recordResume } :=
    .onMotion (f := fun _ c => { c with resume := if c.source = .live then .live else .parked }) rfl fun _ _ => ⟨rfl, rfl, rfl⟩
  refine resume.trans fun c => ?_
  rw [Part.leaveRunning_shaper, Shaper.parkTakeLenses, Shaper.mapChans_get]
  split <;> exact ⟨rfl, rfl, rfl⟩

theorem Part.transition_stands (s : Part) (category : Category) : s.Stands (s.transition category) := by
  unfold Part.transition
  split
  case h_1 | h_8 => exact s.leaveRunning_stands.trans (Part.enterRamping_stands _ _)
  case h_15 => exact s.leaveRunning_stands.trans (Part.enterSafeOff_stands _)
  case h_11 => exact s.enterBraking_stands
  case h_13 | h_16 | h_17 | h_18 | h_19 | h_20 => exact s.enterSafeOff_stands
  all_goals exact .of_shaper rfl

theorem Part.post_stands (s : Part) (kind : CauseKind) (category : Category) (detail : Nat) :
    s.Stands (s.post kind category detail) :=
  .trans (t := { s with seq := s.seq.record kind detail }) (.of_shaper rfl) (Part.transition_stands _ _)

theorem Part.postAll_stands (s : Part) (cs : List (CauseKind × Category × Nat)) : s.Stands (s.postAll cs) := by
  induction cs generalizing s with
  | nil => exact .refl s
  | cons c cs ih => exact (s.post_stands _ _ _).trans (ih _)

theorem Part.onAxes_stands (s : Part) (f : Axis → AxisRecord → SequencerAxis → SequencerAxis) : s.Stands (s.onAxes f) :=
  .of_shaper rfl

theorem Part.declareStandstill_stands (s : Part) : s.Stands s.declareStandstill := by
  unfold Part.declareStandstill
  split
  · exact s.enterHolding_stands
  · exact s.enterBraking_stands
  · exact .refl s

/-- A reading of the feedback changes entries of the sequencer's axes, then at most notes readiness, and then enters
at most one state. -/
theorem Part.sequencerReading_induct {R : Part → Part → Prop} (refl : ∀ s, R s s)
    (trans : ∀ {s t u}, R s t → R t u → R s u) (axes : ∀ s f, R s (Part.onAxes s f))
    (ready : ∀ s : Part, R s { s with seq := { s.seq with
      readiness := true, releaseStart := some s.gateway.cycle, releaseServed := 0 } })
    (standstill : ∀ s, R s (Part.declareStandstill s)) (braked : ∀ s, R s (Part.completeBraking s))
    (released : ∀ s, R s (Part.completeArming s)) (s : Part) (cycle : CycleNo) : R s (s.sequencerReading cycle) := by
  unfold Part.sequencerReading
  split
  · unfold Part.readSettling
    split
    · exact refl s
    · dsimp only
      split
      · exact trans (axes _ _) (standstill _)
      · exact axes _ _
  · unfold Part.readBraking
    split
    · exact refl s
    · exact trans (axes _ _) (braked _)
  · split
    · unfold Part.readReadiness
      split
      · exact refl s
      · dsimp only
        split
        · exact trans (axes _ _) (trans (ready _) (trans (axes _ _) (released _)))
        · exact axes _ _
    · unfold Part.readRelease
      split
      · exact refl s
      · exact trans (axes _ _) (released _)
  all_goals exact refl s

theorem Part.sequencerReading_stands (s : Part) (cycle : CycleNo) : s.Stands (s.sequencerReading cycle) :=
  Part.sequencerReading_induct Part.Stands.refl Part.Stands.trans Part.onAxes_stands (fun _ => .of_shaper rfl)
    Part.declareStandstill_stands Part.completeBraking_stands Part.completeArming_stands s cycle

end

/-! ### What records no cause -/

/-- No cause is recorded. -/
def Part.SameCauses (s t : Part) : Prop := t.seq.causes = s.seq.causes ∧ t.seq.firstCause = s.seq.firstCause

section
variable {s t u : Part}

theorem Part.SameCauses.refl (s : Part) : s.SameCauses s := ⟨rfl, rfl⟩

theorem Part.SameCauses.trans (h : s.SameCauses t) (k : t.SameCauses u) : s.SameCauses u :=
  ⟨k.1.trans h.1, k.2.trans h.2⟩

theorem Part.completeBraking_sameCauses (s : Part) : s.SameCauses s.completeBraking := by
  unfold Part.completeBraking
  split <;> exact ⟨rfl, rfl⟩

theorem Part.completeArming_sameCauses (s : Part) : s.SameCauses s.completeArming := by
  unfold Part.completeArming
  split <;> exact ⟨rfl, rfl⟩

theorem Part.declareStandstill_sameCauses (s : Part) : s.SameCauses s.declareStandstill := by
  unfold Part.declareStandstill
  split
  · exact ⟨rfl, rfl⟩
  · exact .trans (t := s.beginBraking) ⟨rfl, rfl⟩ s.beginBraking.completeBraking_sameCauses
  · exact ⟨rfl, rfl⟩

theorem Part.sequencerReading_sameCauses (s : Part) (cycle : CycleNo) : s.SameCauses (s.sequencerReading cycle) :=
  Part.sequencerReading_induct Part.SameCauses.refl Part.SameCauses.trans (fun _ _ => ⟨rfl, rfl⟩)
    (fun _ => ⟨rfl, rfl⟩) Part.declareStandstill_sameCauses Part.completeBraking_sameCauses
    Part.completeArming_sameCauses s cycle

end

/-! ### Causes posted one after another -/

section
variable (s : Part) (cs : List (CauseKind × Category × Nat))

theorem Part.postAll_cons (c : CauseKind × Category × Nat) :
    s.postAll (c :: cs) = (s.post c.1 c.2.1 c.2.2).postAll cs := rfl

theorem Part.postAll_causes (n : Nat) :
    (s.postAll cs).seq.causes.getLsbD n = (s.seq.causes.getLsbD n || cs.any fun c => n == c.1.bit) := by
  induction cs generalizing s with
  | nil => simp [Part.postAll]
  | cons c cs ih => rw [Part.postAll_cons, ih, Part.post_causes, List.any_cons, Bool.or_assoc]

theorem Part.postAll_firstCause : (s.postAll cs).seq.firstCause =
    s.seq.firstCause.or (cs.head?.map fun c => ⟨c.1, c.2.2⟩) := by
  induction cs generalizing s with
  | nil => simp [Part.postAll]
  | cons c cs ih =>
    rw [Part.postAll_cons, ih, Part.post_firstCause, Option.some_or, List.head?_cons, Option.map_some]
    cases s.seq.firstCause <;> rfl

end

end Sys2Proof.Machine
end

section
/-! SETTLED. A drive frame taken: its faults and the following check. -/

namespace Sys2Proof.Machine

/-! ### The states that causes lead to -/

section
variable {s : Part} {cs : List (CauseKind × Category × Nat)}

/-- R81: Hard causes lead to Safe-Off. -/
theorem Part.postAll_hard (hard : ∀ c ∈ cs, c.2.1 = .hard) (some : cs ≠ [] ∨ s.seq.state = .safeOff) :
    (s.postAll cs).seq.state = .safeOff := by
  induction cs generalizing s with
  | nil => exact some.resolve_left fun h => h rfl
  | cons c cs ih =>
    rw [Part.postAll_cons]
    refine ih (fun x member => hard x (List.mem_cons_of_mem _ member)) (.inr ?_)
    rw [Part.post_state, hard c (List.mem_cons_self ..)]
    rfl

/-- R81: Ramp causes lead from Running to Ramping and leave it there, the category Ramp. -/
theorem Part.postAll_ramp (ramp : ∀ c ∈ cs, c.2.1 = .ramp)
    (from' : (cs ≠ [] ∧ s.seq.state = .running) ∨ (s.seq.state = .ramping ∧ s.seq.category = .ramp)) :
    (s.postAll cs).seq.state = .ramping ∧ (s.postAll cs).seq.category = .ramp := by
  induction cs generalizing s with
  | nil => exact from'.resolve_left fun h => h.1 rfl
  | cons c cs ih =>
    rw [Part.postAll_cons]
    have tabled := Part.transition_tabled { s with seq := s.seq.record c.1 c.2.2 } c.2.1
    have is := ramp c (List.mem_cons_self ..)
    refine ih (fun x member => ramp x (List.mem_cons_of_mem _ member)) (.inr ⟨?_, ?_⟩)
    · refine tabled.state.trans ?_
      dsimp only [Sequencer_record_state]
      rcases from' with ⟨-, run⟩ | ⟨state, -⟩
      · rw [is, run]; rfl
      · rw [is, state]; rfl
    · refine tabled.category.trans ?_
      dsimp only [Sequencer_record_state, Sequencer_record_category]
      rcases from' with ⟨-, run⟩ | ⟨state, inForce⟩
      · rw [is, run]; rfl
      · rw [is, state]; rfl

end

/-! ### The parts of a drive frame's return -/

section
variable (s : Part) (o : Outstanding) (d : DriveReturn)

/-- R12: the feedback recorded. -/
def Part.fed : Part := { s with gateway := s.gateway.takeDrive d }

/-- R12: the part whose return frame leaves. -/
def Part.fedBack : Part := ((s.fed d).checkFollowing o).sequencerReading o.cycle

theorem Part.takeDriveFrame_eq : s.takeDriveFrame o d =
    ((s.fedBack o d).emitReturn o.cycle).postAll ((s.fedBack o d).emitReturn o.cycle).driveFaults := rfl

theorem Part.fedBack_gateway : (s.fedBack o d).gateway = s.gateway.takeDrive d :=
  ((Part.sequencerReading_work _ _).gateway.trans (Part.postAll_work _ _).gateway)

theorem Part.fedBack_axes : (s.fedBack o d).shaper.axes = s.shaper.axes :=
  ((Part.sequencerReading_work _ _).axes.trans (Part.postAll_work _ _).axes)

/-- R12: a slot of the feedback record. -/
theorem Gateway.takeDrive_get (g : Gateway) (c : Slot) : (g.takeDrive d).feedback[c] =
    if d.slots[c].status.answered then ⟨d.slots[c].actual, d.slots[c].status, false⟩
    else ⟨g.feedback[c].actual, DriveStatus.silent, true⟩ := by
  simp only [Gateway.takeDrive, Fin.getElem_fin, Vector.getElem_ofFn, Feedback.take]

theorem Gateway.takeDrive_answered (g : Gateway) (c : Slot) :
    (g.takeDrive d).feedback[c].status.answered = d.slots[c].status.answered := by
  rw [Gateway.takeDrive_get]
  split
  · rfl
  · next silent => exact (Bool.eq_false_iff.mpr silent).symm

theorem Gateway.takeDrive_faulty (g : Gateway) (c : Slot) :
    ((g.takeDrive d).feedback[c].status.fault || !(g.takeDrive d).feedback[c].status.answered) = true ↔
      d.slots[c].status.fault = true ∨ d.slots[c].status.answered = false := by
  rw [Gateway.takeDrive_answered, Gateway.takeDrive_get, Bool.or_eq_true, Bool.not_eq_true']
  split
  · exact Iff.rfl
  · next silent => exact ⟨fun _ => .inr (Bool.eq_false_iff.mpr silent), fun _ => .inr (Bool.eq_false_iff.mpr silent)⟩

/-- R14: a present motion slot is at fault. -/
def Part.Faulty (a : Axis) : Prop := s.shaper.axes[Axis.slot a].present = true ∧
  (d.slots[Axis.slot a].status.fault = true ∨ d.slots[Axis.slot a].status.answered = false)

theorem Part.mem_driveFaults_iff (c : CauseKind × Category × Nat) :
    c ∈ ((s.fedBack o d).emitReturn o.cycle).driveFaults ↔
      ∃ a : Axis, s.Faulty d a ∧ c = (.driveFault, .hard, a.val) := by
  have gateway : ((s.fedBack o d).emitReturn o.cycle).gateway = s.gateway.takeDrive d := s.fedBack_gateway o d
  have axes : ((s.fedBack o d).emitReturn o.cycle).shaper.axes = s.shaper.axes := s.fedBack_axes o d
  simp only [Part.driveFaults, Shaper.motion, gateway, axes, List.mem_map, List.mem_filter, Gateway.takeDrive_faulty,
    allAxes, List.mem_finRange, true_and, Part.Faulty]
  exact exists_congr fun a => and_congr Iff.rfl eq_comm

/-- R14: the faults of the frame are Hard causes of their kind. -/
theorem Part.driveFaults_hard : ∀ c ∈ ((s.fedBack o d).emitReturn o.cycle).driveFaults, c.1 = .driveFault ∧ c.2.1 = .hard := by
  intro c member
  obtain ⟨a, -, rfl⟩ := (s.mem_driveFaults_iff o d c).mp member
  exact ⟨rfl, rfl⟩

theorem Part.driveFaults_eq_nil (sound : ∀ a : Axis, ¬ s.Faulty d a) :
    ((s.fedBack o d).emitReturn o.cycle).driveFaults = [] :=
  List.eq_nil_iff_forall_not_mem.mpr fun c member => by
    obtain ⟨a, faulty, -⟩ := (s.mem_driveFaults_iff o d c).mp member
    exact sound a faulty

/-! ### The following check -/

/-- R53: a slot stands off its setpoint by more than its limit, with torque enable set. -/
def Part.Exceeds (c : Slot) : Prop := o.torque[c] = true ∧ s.shaper.axes[c].following ≠ 0 ∧
  s.shaper.axes[c].following < (d.slots[c].actual - o.setpoints[c]).natAbs

/-- R53: a slot is checked. -/
def Part.Checked (c : Slot) : Prop := s.shaper.axes[c].present = true ∧ d.slots[c].status.answered = true

/-- R53: a slot posts Following. -/
def Part.PostsFollowing (c : Slot) : Prop := s.Checked d c ∧ s.Exceeds o d c ∧
  s.shaper.axes[c].followCount ≤ min s.shaper.axes[c].followCount (s.shaper.chans[c].followRun + 1)

theorem Part.fed_followed_iff (c : Slot) : (s.fed d).followed c = true ↔ s.Checked d c := by
  rw [Part.followed, Bool.and_eq_true]
  refine and_congr Iff.rfl ?_
  exact iff_of_eq (congrArg (· = true) (Gateway.takeDrive_answered d s.gateway c))

theorem Part.fed_actual {c : Slot} (checked : s.Checked d c) : (s.fed d).gateway.feedback[c].actual = d.slots[c].actual := by
  rw [show (s.fed d).gateway.feedback[c] = _ from Gateway.takeDrive_get d s.gateway c, if_pos checked.2]

theorem AxisRecord.exceeds_iff (a : AxisRecord) (torque : Bool) (actual setpoint : Int) :
    a.exceeds torque actual setpoint = true ↔
      torque = true ∧ a.following ≠ 0 ∧ a.following < (actual - setpoint).natAbs := by
  simp [AxisRecord.exceeds, and_assoc]

theorem AxisRecord.nextRun_eq (a : AxisRecord) (run : Nat) (torque : Bool) (actual setpoint : Int) :
    a.nextRun run torque actual setpoint =
      if a.exceeds torque actual setpoint then min a.followCount (run + 1) else 0 := by
  unfold AxisRecord.nextRun AxisRecord.exceeds
  cases torque
  · rfl
  · by_cases none : a.following = 0
    · simp [none]
    · simp only [none, Bool.not_true, beq_iff_eq, Bool.false_or, if_false, bne_iff_ne, ne_eq, not_false_eq_true,
        Bool.true_and, decide_eq_true_eq, Bool.and_eq_true, true_and]
      split
      · rw [if_neg (by omega)]
      · rw [if_pos (by omega)]

/-- R53: the runs the check leaves. -/
theorem Part.followRuns_run (c : Slot) : ((s.fed d).followRuns o).chans[c].followRun =
    if (s.fed d).followed c then (if s.shaper.axes[c].exceeds o.torque[c] d.slots[c].actual o.setpoints[c] then
      min s.shaper.axes[c].followCount (s.shaper.chans[c].followRun + 1) else 0) else s.shaper.chans[c].followRun := by
  rw [Part.followRuns, Shaper.mapChans_get]
  dsimp only
  split
  · next followed =>
    dsimp only
    rw [s.fed_actual d ((s.fed_followed_iff d c).mp followed), AxisRecord.nextRun_eq]
    rfl
  · rfl

theorem Part.takeDriveFrame_stands :
    Part.Stands { s.fed d with shaper := (s.fed d).followRuns o } (s.takeDriveFrame o d) :=
  (Part.postAll_stands _ _).trans ((Part.sequencerReading_stands _ _).trans
    (.trans (.of_shaper rfl) (Part.postAll_stands _ _)))

/-- R53: the part whose following causes are asked for. -/
def Part.checked : Part := { s.fed d with shaper := (s.fed d).followRuns o }

/-- R53: the test of one slot. -/
def Part.followTest (p : Part) (c : Slot) : Bool :=
  p.followed c && p.shaper.axes[c].exceeds o.torque[c] p.gateway.feedback[c].actual o.setpoints[c] &&
    decide (p.shaper.axes[c].followCount ≤ p.shaper.chans[c].followRun)

theorem Part.followTest_iff (c : Slot) : (s.checked o d).followTest o c = true ↔ s.PostsFollowing o d c := by
  have followed : (s.checked o d).followed c = (s.fed d).followed c := rfl
  rw [Part.followTest, Bool.and_eq_true, Bool.and_eq_true, decide_eq_true_eq, followed, s.fed_followed_iff d c,
    and_assoc, Part.PostsFollowing]
  refine and_congr_right fun checked => ?_
  have actual : (s.checked o d).gateway.feedback[c].actual = d.slots[c].actual := s.fed_actual d checked
  have run := s.followRuns_run o d c
  rw [if_pos ((s.fed_followed_iff d c).mpr checked)] at run
  rw [actual]
  refine (and_congr_left' (AxisRecord.exceeds_iff ..)).trans (and_congr_right fun exceeds => ?_)
  rw [if_pos ((AxisRecord.exceeds_iff s.shaper.axes[c] _ _ _).mpr exceeds)] at run
  rw [show (s.checked o d).shaper.chans[c].followRun = _ from run]
  rfl

theorem Part.followCauses_eq : (s.checked o d).followCauses o =
    (allSlots.filter ((s.checked o d).followTest o)).map fun c => (.following, .ramp, c.val) := rfl

theorem Part.followCauses_ramp : ∀ x ∈ (s.checked o d).followCauses o, x.1 = .following ∧ x.2.1 = .ramp := by
  intro x member
  rw [Part.followCauses_eq] at member
  obtain ⟨c, -, rfl⟩ := List.mem_map.mp member
  exact ⟨rfl, rfl⟩

/-- R53: the lowest slot that posts comes first. -/
theorem Part.followCauses_head {c : Slot} (posts : s.PostsFollowing o d c)
    (lowest : ∀ b : Slot, b.val < c.val → ¬ s.PostsFollowing o d b) :
    ((s.checked o d).followCauses o).head? = some (.following, .ramp, c.val) := by
  have first : allSlots.find? ((s.checked o d).followTest o) = some c := by
    rw [List.find?_eq_some_iff_getElem]
    refine ⟨(s.followTest_iff o d c).mpr posts, c.val, by simp [allSlots], by simp [allSlots], fun j below => ?_⟩
    simp only [allSlots, List.getElem_finRange, Fin.cast_mk, Bool.not_eq_true', ← Bool.not_eq_true, Part.followTest_iff]
    exact lowest ⟨j, by omega⟩ below
  rw [Part.followCauses_eq, List.head?_map, List.head?_filter, first]
  rfl

theorem Part.followCauses_eq_nil (none : ∀ c : Slot, ¬ s.PostsFollowing o d c) :
    (s.checked o d).followCauses o = [] := by
  rw [Part.followCauses_eq, List.map_eq_nil_iff, List.filter_eq_nil_iff]
  exact fun c _ test => none c ((s.followTest_iff o d c).mp test)

/-! ### The sequencer after a drive frame -/

/-- The causes and the first cause once the frame is taken: those of the check, then the faults. -/
theorem Part.fedBack_sameCauses : Part.SameCauses ((s.checked o d).postAll ((s.checked o d).followCauses o)) (s.fedBack o d) :=
  Part.sequencerReading_sameCauses _ _

theorem Part.takeDriveFrame_bit4 : (s.takeDriveFrame o d).seq.causes.getLsbD 4 =
    (s.seq.causes.getLsbD 4 || ((s.checked o d).followCauses o).any fun c => 4 == c.1.bit) := by
  have faults : (((s.fedBack o d).emitReturn o.cycle).driveFaults.any fun c => 4 == c.1.bit) = false :=
    List.any_eq_false.mpr fun c member => by rw [(s.driveFaults_hard o d c member).1]; decide
  rw [Part.takeDriveFrame_eq, Part.postAll_causes, faults, Bool.or_false]
  refine (congrArg (·.getLsbD 4) (s.fedBack_sameCauses o d).1).trans ?_
  exact Part.postAll_causes _ _ 4

theorem Part.takeDriveFrame_firstCause : (s.takeDriveFrame o d).seq.firstCause =
    (s.seq.firstCause.or (((s.checked o d).followCauses o).head?.map fun c => ⟨c.1, c.2.2⟩)).or
      (((s.fedBack o d).emitReturn o.cycle).driveFaults.head?.map fun c => ⟨c.1, c.2.2⟩) := by
  rw [Part.takeDriveFrame_eq, Part.postAll_firstCause]
  congr 1
  exact (s.fedBack_sameCauses o d).2.trans (Part.postAll_firstCause _ _)

/-- With no fault the sequencer is that of the feedback read. -/
theorem Part.takeDriveFrame_sound (sound : ∀ a : Axis, ¬ s.Faulty d a) :
    (s.takeDriveFrame o d).seq = (s.fedBack o d).seq := by
  rw [Part.takeDriveFrame_eq, s.driveFaults_eq_nil o d sound]
  rfl

end

/-- Settles O12: the check comes first, and the faults are Hard causes posted last. -/
theorem driveFaultStops : Obligations.DriveFaultStops := by
  unfold Obligations.DriveFaultStops
  refine ⟨fun frame o d a s outstanding read number present fault => ?_, fun frame o d s outstanding read number => ?_⟩
  all_goals
    have taken : exec (.driveFrameReturn frame) s = .next { s with part := s.part.takeDriveFrame o d } := by
      rw [exec_driveFrameReturn, Part.driveReturned_taken outstanding read number]
  · have member := (s.part.mem_driveFaults_iff o d _).mpr ⟨a, ⟨present, fault⟩, rfl⟩
    refine ⟨_, taken, ?_, ?_, ?_⟩
    · exact Part.postAll_hard (fun c member => (s.part.driveFaults_hard o d c member).2) (.inl (List.ne_nil_of_mem member))
    · rw [Part.takeDriveFrame_eq, Part.postAll_causes, List.any_eq_true.mpr ⟨_, member, rfl⟩, Bool.or_true]
    · rw [Part.takeDriveFrame_firstCause]
      cases heads : ((s.part.fedBack o d).emitReturn o.cycle).driveFaults with
      | nil => rw [heads] at member; exact absurd member List.not_mem_nil
      | cons c cs => simp
  · intro ax old exceeds posts sound
    have clean (h : sound) (a : Axis) : ¬ s.part.Faulty d a := by
      rintro ⟨present, fault | silent⟩
      · exact Bool.false_ne_true ((h a present).1.symm.trans fault)
      · exact Bool.false_ne_true (silent.symm.trans (h a present).2)
    have posts_iff (c : Slot) : posts c ↔ s.part.PostsFollowing o d c := and_assoc.symm
    have run (c : Slot) := ((s.part.takeDriveFrame_stands o d c).2.2).trans (s.part.followRuns_run o d c)
    refine ⟨_, taken, fun c => ⟨fun skipped => ?_, fun present answered over' => ?_, fun present answered under => ?_⟩,
      fun c post lowest => ⟨?_, ?_, fun sound running => ?_⟩, fun none => ⟨?_, fun sound running => ?_⟩⟩
    · rw [run, if_neg fun followed => ?_]
      obtain ⟨present, answered⟩ := (s.part.fed_followed_iff d c).mp followed
      rcases skipped with absent | silent
      · exact Bool.false_ne_true (absent.symm.trans present)
      · exact Bool.false_ne_true (silent.symm.trans answered)
    · rw [run, if_pos ((s.part.fed_followed_iff d c).mpr ⟨present, answered⟩),
        if_pos ((AxisRecord.exceeds_iff ..).mpr over')]
    · rw [run, if_pos ((s.part.fed_followed_iff d c).mpr ⟨present, answered⟩),
        if_neg fun over' => under ((AxisRecord.exceeds_iff ..).mp over')]
    · have head := s.part.followCauses_head o d ((posts_iff c).mp post) fun b below h => lowest b below ((posts_iff b).mpr h)
      rw [Part.takeDriveFrame_bit4, Bool.or_eq_true, List.any_eq_true]
      exact .inr ⟨_, List.mem_of_head? head, rfl⟩
    · rw [Part.takeDriveFrame_firstCause, s.part.followCauses_head o d ((posts_iff c).mp post) fun b below h =>
        lowest b below ((posts_iff b).mpr h)]
      cases s.part.seq.firstCause <;> rfl
    · have some : (s.part.checked o d).followCauses o ≠ [] := fun none => by
        have head := s.part.followCauses_head o d ((posts_iff c).mp post) fun b below h =>
          lowest b below ((posts_iff b).mpr h)
        rw [none] at head
        exact nomatch head
      obtain ⟨state, category⟩ := Part.postAll_ramp (s := s.part.checked o d)
        (fun x member => (s.part.followCauses_ramp o d x member).2) (.inl ⟨some, running⟩)
      have read : s.part.fedBack o d = (s.part.checked o d).postAll ((s.part.checked o d).followCauses o) :=
        Part.sequencerReading_idle (.inr (.inr (.inr state)))
      rw [Part.takeDriveFrame_sound _ _ _ (clean sound), read]
      exact ⟨state, category⟩
    · rw [Part.takeDriveFrame_bit4, s.part.followCauses_eq_nil o d fun c h => none c ((posts_iff c).mpr h)]
      exact Bool.or_false _
    · have read : s.part.fedBack o d = s.part.checked o d := by
        have fed : s.part.fedBack o d =
            ((s.part.checked o d).postAll ((s.part.checked o d).followCauses o)).sequencerReading o.cycle := rfl
        rw [fed, s.part.followCauses_eq_nil o d fun c h => none c ((posts_iff c).mpr h)]
        exact Part.sequencerReading_idle (.inr (.inr (.inl running)))
      rw [Part.takeDriveFrame_sound _ _ _ (clean sound), read]
      rfl

end Sys2Proof.Machine
end

section
set_option Elab.async false
/-! SETTLED. What a piece of a served cycle leaves alone: the shaper beside the recorder and the controller, and the
course that causes give the part. -/

namespace Sys2Proof.Machine

/-! ### The controller and the recorder beside the shaper -/

/-- Work that touches neither the shaper nor what the player records of a halt, and closes no cue. -/
structure Part.Aside (s t : Part) : Prop where
  shaper : t.shaper = s.shaper := by exact rfl
  halt : t.player.haltReason = s.player.haltReason := by exact rfl
  closing : t.player.state = .closing → s.player.state = .closing := by exact fun h => h

section
variable {s t u : Part}

theorem Part.Aside.refl (s : Part) : s.Aside s := {}

theorem Part.Aside.trans (h : s.Aside t) (k : t.Aside u) : s.Aside u :=
  ⟨k.shaper.trans h.shaper, k.halt.trans h.halt, fun c => h.closing (k.closing c)⟩

theorem Part.judgeTake_haltReason {p : Player} (judged : s.judgeTake = .ok p) : p.haltReason = s.player.haltReason := by
  unfold Part.judgeTake at judged
  dsimp only at judged
  split at judged
  · exact nomatch judged
  split at judged
  · exact nomatch judged
  split at judged
  · cases judged; rfl
  · exact nomatch judged

theorem Part.fetchRounds_aside (n : Nat) (s : Part) : s.Aside (Part.fetchRounds n s) := by
  induction n generalizing s with
  | zero => exact .refl s
  | succ n ih =>
    unfold Part.fetchRounds
    split
    · exact { closing := fun h => nomatch h }
    split
    · exact .trans {} (ih (s.failCue _))
    · next p judged =>
      have halt : p.haltReason = s.player.haltReason := Part.judgeTake_haltReason judged
      exact { halt, closing := fun h => nomatch h }

theorem Part.takeLatchedGo_aside (s : Part) : s.Aside s.takeLatchedGo := by
  unfold Part.takeLatchedGo
  split
  · exact { closing := fun h => nomatch h }
  · exact .refl s

theorem Part.prefetchArrived_aside (s : Part) (page : Nat) (data : Option (List Byte)) :
    s.Aside (s.prefetchArrived page data) :=
  .trans (t := { s with player := { s.player with prefetch := _ } }) {} (Part.takeLatchedGo_aside _)

/-- A page read that is not performed. -/
theorem Part.playerReadDone_none_aside (s : Part) (page : Nat) : s.Aside (s.playerReadDone page none) := by
  unfold Part.playerReadDone
  split
  · exact .trans {} (Part.fetchRounds_aside 17 (s.failCue .badTake))
  · exact .refl s
  · exact .refl s
  all_goals exact s.prefetchArrived_aside page none

theorem Part.startJob_aside (s : Part) (j : Job) : s.Aside (s.startJob j) := by
  unfold Part.startJob
  split
  · exact {}
  · cases j
    case playerRead => exact s.playerReadDone_none_aside _
    all_goals exact {}

theorem Part.chooseRounds_aside (n : Nat) (s : Part) : s.Aside (Part.chooseRounds n s) := by
  induction n generalizing s with
  | zero => exact .refl s
  | succ n ih =>
    have next (t : TakeArray) (j : Job) :
        s.Aside (Part.chooseRounds n (Part.startJob { s with array := t } j)) :=
      .trans (t := { s with array := t }) {} ((Part.startJob_aside _ j).trans (ih _))
    unfold Part.chooseRounds
    split
    · exact .refl s
    split
    case h_4 => exact {}
    all_goals exact next _ _

theorem Part.kick_aside (s : Part) : s.Aside s.kick := by
  unfold Part.kick
  split
  · exact .refl s
  · split
    · exact .refl s
    · exact .trans (t := { s with array := { s.array with operation := none, suspended := some _ } }) {}
        (Part.chooseRounds_aside _ _)
  · exact Part.chooseRounds_aside _ s

theorem Part.addRecorderJobs_aside (s : Part) (js : List Job) : s.Aside (s.addRecorderJobs js) :=
  .trans (t := { s with array := { s.array with recorderJobs := s.array.recorderJobs ++ js } }) {} (Part.kick_aside _)

theorem Part.returnReserved_aside (s : Part) : s.Aside s.returnReserved := by
  unfold Part.returnReserved
  split <;> exact {}

theorem Part.closeRecording_aside (s : Part) (reason : EndReason) : s.Aside (s.closeRecording reason) := by
  unfold Part.closeRecording
  dsimp only
  split
  · exact .trans (.trans (t := { s with recorder := _ }) {} (Part.returnReserved_aside _))
      (Part.addRecorderJobs_aside _ _)
  · exact .trans (t := { s with recorder := _ }) {} (Part.returnReserved_aside _)

theorem Part.recorderStopNotice_aside (s : Part) : s.Aside s.recorderStopNotice := by
  unfold Part.recorderStopNotice Part.closeArmed
  split
  case h_1 | h_2 => exact s.closeRecording_aside _
  case h_3 => split <;> exact {}
  all_goals exact .refl s

theorem Part.onSlot_aside (s : Part) (f : DirectorySlot → DirectorySlot) : s.Aside (s.onSlot f) := by
  unfold Part.onSlot
  split <;> exact {}

theorem Part.reserveBay_aside (s : Part) (slot : DirIx) : s.Aside (s.reserveBay slot) := by
  unfold Part.reserveBay
  split <;> exact {}

theorem Part.Aside.recorder (s : Part) (r : Recorder) : s.Aside { s with recorder := r } := {}

theorem Part.makeTurn_aside (s : Part) (i : BufferId) (slot : DirIx) (opening : List Entry) :
    s.Aside (s.makeTurn i slot opening) := .trans (.recorder s _) (Part.addRecorderJobs_aside _ _)

theorem Part.turnPage_aside (s : Part) : s.Aside s.turnPage := by
  unfold Part.turnPage
  split
  · next i slot _ _ =>
    have turned (s1 : Part) (page : Nat) : s1.Aside (if s1.turnWaits i page then
        { s1 with recorder := { s1.recorder with state := .stalled } } else s1.makeTurn i slot []) := by
      split
      · exact .recorder _ _
      · exact s1.makeTurn_aside i slot []
    dsimp only
    split
    · exact s.closeRecording_aside _
    split
    · exact (s.reserveBay_aside slot).trans (turned _ _)
    · exact turned s _
  · exact .refl s

theorem Part.checkRoom_aside (s : Part) : s.Aside s.checkRoom := by
  unfold Part.checkRoom
  split
  · split
    · exact s.turnPage_aside
    · exact .refl s
  · exact .refl s

theorem Part.sampleInstant_aside (s : Part) : s.Aside s.sampleInstant := by
  unfold Part.sampleInstant
  split
  · split
    · exact .refl s
    split
    · exact .refl s
    split
    · exact s.closeRecording_aside _
    split
    · exact (s.onSlot_aside _).trans {}
    · exact (s.onSlot_aside _).trans (.trans (.recorder _ _) (Part.checkRoom_aside _))
  · exact .refl s

theorem Part.startClock_aside (s : Part) : s.Aside s.startClock := by
  unfold Part.startClock
  split
  · exact .refl s
  · dsimp only
    split
    · exact (s.onSlot_aside _).trans (.trans (.recorder _ _) (Part.addRecorderJobs_aside _ _))
    · exact (s.onSlot_aside _).trans {}

theorem Part.recorderServing_aside (s : Part) : s.Aside s.recorderServing := by
  unfold Part.recorderServing
  split
  · split
    · exact s.startClock_aside
    · split
      · exact s.startClock_aside
      · exact .refl s
    · exact .refl s
  all_goals exact {}

theorem Part.fillRounds_aside (n : Nat) (s : Part) : s.Aside (Part.fillRounds n s) := by
  induction n generalizing s with
  | zero => exact .refl s
  | succ n ih =>
    unfold Part.fillRounds
    split
    · exact .trans (t := { s with array := _ }) {} (ih _)
    · exact .refl s

theorem Part.enterWaiting_aside (s : Part) : s.Aside s.enterWaiting :=
  .trans (.trans (.trans (t := { s with player := { s.player with state := .waiting } })
    { closing := fun h => nomatch h } (Part.fillRounds_aside 4 _)) (Part.takeLatchedGo_aside _)) (Part.kick_aside _)

theorem Part.playerStopNotice_aside (s : Part) : s.Aside s.playerStopNotice := by
  unfold Part.playerStopNotice
  dsimp only
  split <;> exact { closing := by simp [*] }

end

end Sys2Proof.Machine
end

section
/-! SETTLED. The course that causes and timers give the part over a served cycle. -/

namespace Sys2Proof.Machine

/-- How far a stop has come: causes only ever lead on. -/
def StopState.rank : StopState → Nat
  | .running => 0
  | .arming => 1
  | .holding => 2
  | .ramping => 3 | .settling => 3
  | .braking => 4
  | .safeOff => 5

theorem StopState.after_settling (st : StopState) (category : Category) (brakes : Bool) :
    st.after category brakes = .settling → st = .settling := by
  cases category <;> cases st <;> cases brakes <;> decide

/-- The course that causes give the part over a served cycle: the shaped states stay, causes join, the stop leads on
unless the channels stay as they are, and a channel is on Track where it was or, the crane
stopped, in Safe-Off. -/
structure Part.Course (s t : Part) : Prop where
  stands : s.Stands t
  onward : (t.shaper.chans = s.shaper.chans ∧ t.seq.state.rank = s.seq.state.rank) ∨
    s.seq.state.rank < t.seq.state.rank
  off : s.seq.state = .safeOff → t.seq.state = .safeOff
  toTrack : ∀ c : Slot, t.shaper.chans[c].source = .track → s.shaper.chans[c].source = .track ∨ t.seq.state = .safeOff
  onTrack : s.seq.state = .safeOff → ∀ c : Slot, s.shaper.chans[c].source = .track → t.shaper.chans[c].source = .track
  causes : ∀ n, s.seq.causes.getLsbD n = true → t.seq.causes.getLsbD n = true

section
variable {s t u : Part}

/-- Nothing of the channels and of the sequencer that counts changes. -/
theorem Part.Course.of_same (chans : t.shaper.chans = s.shaper.chans) (state : t.seq.state = s.seq.state)
    (causes : t.seq.causes = s.seq.causes) : s.Course t where
  stands := fun c => by rw [chans]; exact ⟨rfl, rfl, rfl⟩
  onward := .inl ⟨chans, by rw [state]⟩
  off := fun h => state.trans h
  toTrack := fun c h => .inl (by rw [← chans]; exact h)
  onTrack := fun _ c h => by rw [chans]; exact h
  causes := fun n h => by rw [causes]; exact h

theorem Part.Course.refl (s : Part) : s.Course s := .of_same rfl rfl rfl

theorem Part.Aside.course (aside : s.Aside t) (seq : t.seq = s.seq) : s.Course t :=
  .of_same (by rw [aside.shaper]) (by rw [seq]) (by rw [seq])

theorem Part.Course.trans (h : s.Course t) (k : t.Course u) : s.Course u where
  stands := h.stands.trans k.stands
  onward := by
    rcases h.onward with ⟨same, rank⟩ | more <;> rcases k.onward with ⟨same', rank'⟩ | more'
    · exact .inl ⟨same'.trans same, rank'.trans rank⟩
    · exact .inr (rank ▸ more')
    · exact .inr (rank' ▸ more)
    · exact .inr (Nat.lt_trans more more')
  off := fun h' => k.off (h.off h')
  toTrack := fun c track => by
    rcases k.toTrack c track with was | now
    · exact (h.toTrack c was).imp_right k.off
    · exact .inr now
  onTrack := fun off c track => k.onTrack (h.off off) c (h.onTrack off c track)
  causes := fun n bit => k.causes n (h.causes n bit)

/-- R81: Running once left is not come back to. -/
theorem Part.Course.left (h : s.Course t) (on : s.seq.state ≠ .running) : t.seq.state ≠ .running := by
  intro running
  have later : s.seq.state.rank ≤ t.seq.state.rank := by
    rcases h.onward with ⟨-, same⟩ | more
    · exact Nat.le_of_eq same.symm
    · exact Nat.le_of_lt more
  rw [running] at later
  cases state : s.seq.state
  case running => exact on state
  all_goals
    rw [state] at later
    exact absurd later (by decide)

/-- R81: a change of stop state that leads on. -/
theorem Part.Course.enter (stands : s.Stands t) (more : s.seq.state.rank < t.seq.state.rank)
    (toTrack : ∀ c : Slot, t.shaper.chans[c].source = .track → s.shaper.chans[c].source = .track ∨ t.seq.state = .safeOff)
    (causes : t.seq.causes = s.seq.causes) : s.Course t where
  stands := stands
  onward := .inr more
  off := fun h => by rw [h] at more; cases state : t.seq.state <;> rw [state] at more <;> exact absurd more (by decide)
  toTrack := toTrack
  onTrack := fun h => by rw [h] at more; cases state : t.seq.state <;> rw [state] at more <;> exact absurd more (by decide)
  causes := fun n h => by rw [causes]; exact h

theorem StopState.rank_lt {st : StopState} (on : st ≠ .safeOff) : st.rank < StopState.safeOff.rank := by
  cases st
  case safeOff => exact absurd rfl on
  all_goals decide

theorem Part.enterSafeOff_course (on : s.seq.state ≠ .safeOff) : s.Course s.enterSafeOff :=
  .enter s.enterSafeOff_stands (StopState.rank_lt on) (fun _ _ => .inr rfl) rfl

/-- A motion channel that takes another source than Track. -/
theorem Shaper.onMotion_track {sh : Shaper} {f : AxisRecord → Channel → Channel}
    (moves : ∀ a ch, (f a ch).source ≠ .track) {c : Slot} (track : (sh.onMotion f).chans[c].source = .track) :
    sh.chans[c].source = .track := by
  rw [Shaper.onMotion_get] at track
  split at track
  · exact absurd track (moves _ _)
  · exact track

theorem Part.enterHolding_course (arming : s.seq.state = .arming) : s.Course s.enterHolding :=
  .enter s.enterHolding_stands (by rw [arming]; exact (by decide : StopState.arming.rank < StopState.holding.rank))
    (fun _ track => .inl (Shaper.onMotion_track (f := fun _ c => c.parkAt c.p) (fun _ _ => Source.noConfusion) track))
    rfl

theorem Part.completeBraking_course (on : s.seq.state ≠ .safeOff) : s.Course s.completeBraking := by
  unfold Part.completeBraking
  split
  · exact Part.enterSafeOff_course on
  · exact .refl s

theorem Part.completeArming_course (arming : s.seq.state = .arming) : s.Course s.completeArming := by
  unfold Part.completeArming
  split
  · exact Part.enterHolding_course arming
  · exact .refl s

theorem Part.enterBraking_course (holding : s.seq.state = .holding) : s.Course s.enterBraking := by
  rw [Part.enterBraking_eq]
  have begun : s.Course s.beginBraking :=
    .enter (.of_shaper rfl) (by rw [holding]; exact (by decide : StopState.holding.rank < StopState.braking.rank)) (fun _ track => .inl track) rfl
  split
  · exact begun
  · exact begun.trans (Part.enterSafeOff_course StopState.noConfusion)

/-- R87: leaving Running leads nowhere by itself. -/
theorem Part.leaveRunning_track (s : Part) {c : Slot} (track : s.leaveRunning.shaper.chans[c].source = .track) :
    s.shaper.chans[c].source = .track := by
  rcases Slot.motion_or_lens c with ⟨a, rfl⟩ | ⟨l, rfl⟩
  · rw [Part.leaveRunning_axis] at track
    split at track <;> exact track
  · rw [Part.leaveRunning_lens] at track
    split at track
    · exact nomatch track
    · exact track

theorem Part.leaveRunning_aside (s : Part) :
    Part.Aside { s with shaper := s.shaper.recordResume.parkTakeLenses } s.leaveRunning :=
  .trans (Part.playerStopNotice_aside _) (Part.recorderStopNotice_aside _)

theorem Part.enterRamping_course (running : s.seq.state = .running) (category : InForce) :
    s.Course (s.leaveRunning.enterRamping category) :=
  .enter (s.leaveRunning_stands.trans (Part.enterRamping_stands _ _))
    (by rw [running]; exact (by decide : StopState.running.rank < StopState.ramping.rank))
    (fun _ track => .inl (s.leaveRunning_track (Shaper.onMotion_track
      (f := fun a c => { c with source := .stop, rampDecel := a.astop }) (fun _ _ => Source.noConfusion) track)))
    (show s.leaveRunning.seq.causes = s.seq.causes by rw [s.leaveRunning_work.seq])

theorem Part.transition_course (s : Part) (category : Category) : s.Course (s.transition category) := by
  unfold Part.transition
  split
  case h_1 run | h_8 run => exact Part.enterRamping_course run _
  case h_15 run =>
    refine .enter (s.leaveRunning_stands.trans (Part.enterSafeOff_stands _))
      (by rw [run]; exact (by decide : StopState.running.rank < StopState.safeOff.rank)) (fun _ _ => .inr rfl) ?_
    show s.leaveRunning.seq.causes = s.seq.causes
    rw [s.leaveRunning_work.seq]
  case h_9 | h_10 => exact .of_same rfl rfl rfl
  case h_11 holding => exact Part.enterBraking_course holding
  case h_13 now | h_16 now | h_17 now | h_18 now | h_19 now | h_20 now =>
    exact Part.enterSafeOff_course (by rw [now]; exact StopState.noConfusion)
  all_goals exact .refl s

/-- A cause recorded. -/
theorem Part.record_course (s : Part) (kind : CauseKind) (detail : Nat) :
    s.Course { s with seq := s.seq.record kind detail } :=
  { Part.Course.refl s with
    causes := fun n bit => by
      rw [Sequencer.record_causes, bit, Bool.true_or] }

theorem Part.post_course (s : Part) (kind : CauseKind) (category : Category) (detail : Nat) :
    s.Course (s.post kind category detail) := (s.record_course kind detail).trans (Part.transition_course _ _)

theorem Part.postAll_course (cs : List (CauseKind × Category × Nat)) (s : Part) : s.Course (s.postAll cs) := by
  induction cs generalizing s with
  | nil => exact .refl s
  | cons c cs ih => exact (s.post_course _ _ _).trans (ih _)

/-! ### The sequencer at the serving -/

theorem Part.checkStillTimeout_course (s : Part) : s.Course s.checkStillTimeout := by
  unfold Part.checkStillTimeout
  split
  · exact s.post_course _ _ _
  · exact .refl s

theorem Part.checkBrakeTimer_course (s : Part) : s.Course s.checkBrakeTimer := by
  unfold Part.checkBrakeTimer
  split
  · next due =>
    exact .trans (t := s.onAxes _) (.of_same rfl rfl rfl)
      (Part.completeBraking_course (by rw [show (s.onAxes _).seq.state = s.seq.state from rfl, due.1]; exact StopState.noConfusion))
  · exact .refl s

theorem Part.checkBrakeTimeout_course (s : Part) : s.Course s.checkBrakeTimeout := by
  unfold Part.checkBrakeTimeout
  split
  · exact s.post_course _ _ _
  · exact .refl s

theorem Part.checkReleaseTimer_course (s : Part) : s.Course s.checkReleaseTimer := by
  unfold Part.checkReleaseTimer
  split
  · next due => exact .trans (t := s.onAxes _) (.of_same rfl rfl rfl) (Part.completeArming_course due.1)
  · exact .refl s

theorem Part.checkArmingTimeout_course (s : Part) : s.Course s.checkArmingTimeout := by
  unfold Part.checkArmingTimeout
  split
  · exact s.post_course _ _ _
  · exact .refl s

theorem Part.sequencerServing_course (s : Part) : s.Course s.sequencerServing := by
  have counted : s.Course s.countPhase := .of_same rfl rfl rfl
  unfold Part.sequencerServing
  split
  · exact counted.trans (Part.checkStillTimeout_course _)
  · exact counted.trans (.trans (Part.checkBrakeTimer_course _) (Part.checkBrakeTimeout_course _))
  · exact counted.trans (.trans (.trans (t := s.countPhase.countRelease) (.of_same rfl rfl rfl)
      (Part.checkReleaseTimer_course _)) (Part.checkArmingTimeout_course _))
  all_goals exact .refl s

end

end Sys2Proof.Machine
end

section
/-! SETTLED. The step of a served cycle: requests, shaped states, and the course of what follows up to the drive frame. -/

namespace Sys2Proof.Machine

/-! ### The stages of a cycle after the player's step -/

section
variable (m : Part)

/-- R45, R52: the requests formed and the channels stepped. -/
def Part.stepped : Part := { m with lens := m.formLenses, shaper := Part.stepShaper { m with lens := m.formLenses } m.requests }

/-- R54, R70: the divergence check and the zone monitor's work made. -/
def Part.zoned : Part := (m.stepped.checkDivergence m.requests).zoneWork

/-- R89, R161: the sample taken and the end of a ramp looked for. -/
def Part.ended : Part := m.zoned.sampleInstant.checkRampEnd (m.seq.state = .ramping)

/-- R178, R185: the shaper's report made; what is left is the drive frame. -/
def Part.cycled : Part := m.ended.arrivalReport m.requests

theorem Part.stepAndEmit_eq : m.stepAndEmit = m.cycled.emitDrive m.stepped.setpoints := rfl

end

/-! ### Requests -/

section
variable {m : Part}

theorem Part.requests_axis (a : Axis) : m.requests[Axis.slot a] = m.motionRequest (Axis.slot a) := by
  simp only [Part.requests, Fin.getElem_fin, Vector.getElem_ofFn, Fin.eta, lensOf_motion]

theorem Part.requests_lens (l : LensIx) : m.requests[LensIx.slot l] = (m.lensRequest l).2 := by
  simp only [Part.requests, Fin.getElem_fin, Vector.getElem_ofFn, Fin.eta, lensOf_lens]

theorem Part.formLenses_get (l : LensIx) : m.formLenses.chans[l] = (m.lensRequest l).1 := by
  simp only [Part.formLenses, Fin.getElem_fin, Vector.getElem_ofFn, Fin.eta]

/-- R44: the request of a motion axis. -/
theorem Part.motionAsks (a : Axis) : m.MotionAsks a m.requests[Axis.slot a] := by
  rw [Part.requests_axis, Part.MotionAsks, Part.motionRequest]
  cases m.shaper.chans[Axis.slot a].source
  case take => exact fun v held => by rw [held]; rfl
  case live | parked => rfl
  case stop | track => exact trivial

/-- R107: the fresh input, where there is one. -/
theorem freshInput_eq (g : LensMapper) (l : LensIx) (fb : Feedback) (tip : Point) (demand : Int) :
    freshInput g l fb tip demand =
      if fb.stale = false ∧ fb.status.fault = false ∧ (g.chans[l].mode = .follow → g.target.stale = false) then
        some (if g.chans[l].mode = .follow then followValue tip g.target else demand) else none := by
  unfold freshInput
  cases fb.stale
  case true => simp
  cases fb.status.fault
  case true => simp
  cases mode : g.chans[l].mode
  case follow => cases g.target.stale <;> simp
  all_goals simp

/-- R117: the follow value. -/
theorem followValue_eq (tip : Point) (g : Target) : followValue tip g =
    (((isqrt ((g.point.x - tip.x) ^ 2 + (g.point.y - tip.y) ^ 2 + (g.point.z - tip.z) ^ 2).toNat + 50) / 100 : Nat) :
      Int) + g.offset := by
  simp only [followValue, Int.pow_succ, Int.pow_zero, Int.one_mul]

/-- R44, R107, R117 to R120: the request of a lens channel. -/
theorem Part.lensAsks (l : LensIx) : m.LensAsks l m.formLenses.chans[l] m.requests[LensIx.slot l] := by
  rw [Part.requests_lens, Part.formLenses_get, Part.LensAsks, Part.lensRequest]
  dsimp only
  have physical_iff := LensMode.physical_iff m.lens.chans[l].mode
  cases m.shaper.chans[LensIx.slot l].source
  case stop | track => rfl
  case parked =>
    refine ⟨rfl, fun direct => if_neg (mt physical_iff.mp direct), fun mapped => if_pos (physical_iff.mpr mapped)⟩
  case take =>
    refine ⟨fun direct => ?_, fun mapped v held => ?_⟩
    · rw [LensChannel.formTake, if_neg (mt physical_iff.mp direct)]
      exact ⟨rfl, fun v held => by rw [held]; rfl⟩
    · rw [LensChannel.formTake, if_pos (physical_iff.mpr mapped), held]
      exact ⟨rfl, rfl⟩
  case live =>
    rw [freshInput_eq, followValue_eq]
    refine ⟨fun direct => ?_, fun mapped => ?_⟩
    · unfold LensChannel.formLive
      rw [if_neg (mt physical_iff.mp direct)]
      refine ⟨_, fun fresh => ?_, fun old => ?_, rfl, rfl⟩
      · rw [if_pos fresh]; rfl
      · rw [if_neg old]; rfl
    · unfold LensChannel.formLive
      rw [if_pos (physical_iff.mpr mapped)]
      refine ⟨_, fun fresh => ?_, fun old => ?_, rfl, rfl⟩
      · rw [if_pos fresh]; rfl
      · rw [if_neg old]

/-! ### The shaper's step -/

theorem LensChannel.formLive_window (c : LensChannel) (input : Option Int) :
    (c.formLive input).1.mode = c.mode ∧ (c.formLive input).1.active = c.active := by
  unfold LensChannel.formLive
  split <;> exact ⟨rfl, rfl⟩

theorem Part.lensRequest_window (l : LensIx) :
    (m.lensRequest l).1.mode = m.lens.chans[l].mode ∧ (m.lensRequest l).1.active = m.lens.chans[l].active := by
  unfold Part.lensRequest
  dsimp only
  split
  · exact LensChannel.formLive_window _ _
  · unfold LensChannel.formTake
    split <;> exact ⟨rfl, rfl⟩
  · unfold LensChannel.formParked
    split <;> exact ⟨rfl, rfl⟩
  all_goals exact ⟨rfl, rfl⟩

/-- The windows do not see the requests formed. -/
theorem Part.formLenses_window (c : Slot) : Part.window { m with lens := m.formLenses } c = m.window c := by
  unfold Part.window
  cases lensOf c with
  | none => rfl
  | some l =>
    dsimp only
    rw [Part.formLenses_get, (Part.lensRequest_window l).1, (Part.lensRequest_window l).2]

theorem Part.stepped_get (c : Slot) :
    m.stepped.shaper.chans[c] = Part.stepChannel { m with lens := m.formLenses } m.requests c := by
  simp only [Part.stepped, Part.stepShaper, Fin.getElem_fin, Vector.getElem_ofFn, Fin.eta]

/-- R45 to R50: the step of a channel. -/
theorem Part.stepped_stepsTo (c : Slot) :
    m.StepsTo c m.requests[c] m.stepped.shaper.chans[c].p m.stepped.shaper.chans[c].v := by
  have window : fineWindow (m.window c) = ((m.window c).1 * 65536, (m.window c).2 * 65536) := rfl
  rw [Part.stepped_get, Part.StepsTo, Part.stepChannel, Part.formLenses_window, window]
  dsimp only
  cases m.shaper.chans[c].source
  case stop | track => exact ⟨rfl, rfl⟩
  all_goals
    unfold Channel.shape nextVelocity Shaper.scaleOf isMotion effectiveSpeed
    simp only [decide_eq_true_eq]
    exact ⟨rfl, trivial⟩

/-- Of a channel the step changes the shaped state only. -/
theorem Part.stepped_kept (c : Slot) : m.stepped.shaper.chans[c] =
    { m.shaper.chans[c] with p := m.stepped.shaper.chans[c].p, v := m.stepped.shaper.chans[c].v } := by
  rw [Part.stepped_get]
  unfold Part.stepChannel
  dsimp only
  split <;> rfl

theorem Part.stepped_source (c : Slot) : m.stepped.shaper.chans[c].source = m.shaper.chans[c].source := by
  rw [Part.stepped_kept]

end

end Sys2Proof.Machine
end

section
set_option Elab.async false
/-! SETTLED. The course of a served cycle: from the player's step to the drive frame, and before it. -/

namespace Sys2Proof.Machine

section
variable {s t u : Part}

/-! ### Course, halt reason and closing of each piece -/

/-- A piece that neither settles the crane nor closes a cue. -/
structure Part.Steady (s t : Part) : Prop extends s.Course t where
  settling : t.seq.state = .settling → s.seq.state = .settling
  closing : t.player.state = .closing → s.player.state = .closing

theorem Part.Steady.refl (s : Part) : s.Steady s := ⟨.refl s, id, id⟩

theorem Part.Steady.trans (h : s.Steady t) (k : t.Steady u) : s.Steady u :=
  ⟨h.toCourse.trans k.toCourse, h.settling ∘ k.settling, h.closing ∘ k.closing⟩

theorem Part.Aside.steady (aside : s.Aside t) (seq : t.seq = s.seq) : s.Steady t :=
  ⟨aside.course seq, fun h => by rw [← seq]; exact h, aside.closing⟩

theorem Part.transition_player (s : Part) (category : Category) :
    (s.transition category).player.haltReason = s.player.haltReason ∧
    ((s.transition category).player.state = .closing → s.player.state = .closing) := by
  have left : s.leaveRunning.player.haltReason = s.player.haltReason ∧
      (s.leaveRunning.player.state = .closing → s.player.state = .closing) :=
    ⟨s.leaveRunning_aside.halt, s.leaveRunning_aside.closing⟩
  unfold Part.transition
  split
  case h_1 | h_8 | h_15 => exact left
  case h_11 =>
    rw [Part.enterBraking_eq]
    split <;> exact ⟨rfl, id⟩
  all_goals exact ⟨rfl, id⟩

theorem Part.post_steady (s : Part) (kind : CauseKind) (category : Category) (detail : Nat) :
    s.Steady (s.post kind category detail) where
  toCourse := s.post_course kind category detail
  settling := fun h => by
    rw [Part.post_state] at h
    exact StopState.after_settling _ _ _ h
  closing := (Part.transition_player _ _).2

theorem Part.post_halt (s : Part) (kind : CauseKind) (category : Category) (detail : Nat) :
    (s.post kind category detail).player.haltReason = s.player.haltReason := (Part.transition_player _ _).1

theorem Part.postAll_steady (cs : List (CauseKind × Category × Nat)) (s : Part) : s.Steady (s.postAll cs) := by
  induction cs generalizing s with
  | nil => exact .refl s
  | cons c cs ih => exact (s.post_steady _ _ _).trans (ih _)

theorem Part.postAll_halt (cs : List (CauseKind × Category × Nat)) (s : Part) :
    (s.postAll cs).player.haltReason = s.player.haltReason := by
  induction cs generalizing s with
  | nil => rfl
  | cons c cs ih => exact (ih _).trans (s.post_halt _ _ _)

/-! ### The divergence check -/

theorem Part.diverge_steady (s : Part) (c : Slot) : s.Steady (s.diverge c) :=
  (s.post_steady _ _ _).trans ⟨.of_same rfl rfl rfl, id, id⟩

theorem Part.diverge_halt (s : Part) (c : Slot) : (s.diverge c).player.haltReason =
    if s.player.haltReason = .none then .diverged else s.player.haltReason := by
  show (if (s.post .divergence .hold c.val).player.haltReason = .none then _ else _) = _
  rw [Part.post_halt]

/-- R54: several divergences of one cycle. -/
def Part.divergeAll (s : Part) (cs : List Slot) : Part := cs.foldl (fun t c => t.diverge c) s

theorem Part.divergeAll_steady (cs : List Slot) (s : Part) : s.Steady (s.divergeAll cs) := by
  induction cs generalizing s with
  | nil => exact .refl s
  | cons c cs ih => exact (s.diverge_steady c).trans (ih _)

theorem Part.divergeAll_bit (cs : List Slot) (s : Part) (n : Nat) :
    (s.divergeAll cs).seq.causes.getLsbD n = (s.seq.causes.getLsbD n || (n == 8 && !cs.isEmpty)) := by
  induction cs generalizing s with
  | nil => simp [Part.divergeAll]
  | cons c cs ih =>
    have first : (s.diverge c).seq.causes.getLsbD n = (s.seq.causes.getLsbD n || n == 8) :=
      s.post_causes .divergence .hold c.val n
    refine (ih (s.diverge c)).trans ?_
    rw [first]
    cases s.seq.causes.getLsbD n <;> cases n == 8 <;> simp

theorem Part.divergeAll_halt (cs : List Slot) (s : Part) : (s.divergeAll cs).player.haltReason =
    if cs ≠ [] ∧ s.player.haltReason = .none then .diverged else s.player.haltReason := by
  induction cs generalizing s with
  | nil => simp [Part.divergeAll]
  | cons c cs ih =>
    refine (ih (s.diverge c)).trans ?_
    rw [s.diverge_halt c]
    by_cases none : s.player.haltReason = .none
    · simp [none]
    · simp [none]

/-- R54, R81: a divergence leaves Running. -/
theorem Part.divergeAll_running {cs : List Slot} (some : cs ≠ []) (s : Part) : (s.divergeAll cs).seq.state ≠ .running := by
  obtain ⟨c, cs, rfl⟩ := List.exists_cons_of_ne_nil some
  refine (Part.divergeAll_steady cs (s.diverge c)).left ?_
  rw [show (s.diverge c).seq.state = s.seq.state.after .hold s.hasBrake from s.post_state .divergence .hold c.val]
  cases s.seq.state <;> exact StopState.noConfusion

theorem Part.checkDivergence_eq (s : Part) (requests : Vector Int 12) : s.checkDivergence requests =
    if s.player.state = .playing then s.divergeAll (s.shaper.divergent requests) else s := rfl

theorem Part.checkDivergence_steady (s : Part) (requests : Vector Int 12) : s.Steady (s.checkDivergence requests) := by
  rw [Part.checkDivergence_eq]
  split
  · exact Part.divergeAll_steady _ s
  · exact .refl s

/-! ### The zone monitor's work, the sample, the end of a ramp, the report of arrival -/

theorem Part.zoneTests_steady (s : Part) : s.Steady s.zoneTests := by
  unfold Part.zoneTests
  split
  · exact Part.postAll_steady _ s
  · exact .refl s

theorem Part.zoneWork_steady (s : Part) : s.Steady s.zoneWork :=
  .trans (t := { s with zone := s.zone.update s.shaper }) ⟨.of_same rfl rfl rfl, id, id⟩
    (.trans (Part.zoneTests_steady _) ⟨.of_same rfl rfl rfl, id, id⟩)

theorem Part.sampleInstant_steady (s : Part) : s.Steady s.sampleInstant :=
  s.sampleInstant_aside.steady s.sampleInstant_work.seq

theorem Part.checkRampEnd_course (s : Part) (was : Bool) : s.Course (s.checkRampEnd was) := by
  unfold Part.checkRampEnd
  split
  · next ends =>
    exact {
      stands := .of_shaper rfl
      onward := .inl ⟨rfl, by rw [ends.2.1]; rfl⟩
      off := fun off => by rw [ends.2.1] at off; exact nomatch off
      toTrack := fun _ track => .inl track
      onTrack := fun _ _ track => track
      causes := fun _ bit => bit }
  · exact .refl s

theorem Part.checkRampEnd_player (s : Part) (was : Bool) : (s.checkRampEnd was).player = s.player := by
  unfold Part.checkRampEnd
  split <;> rfl

theorem Part.arrivalReport_aside (open' : s.player.state ≠ .closing) (requests : Vector Int 12) :
    s.Aside (s.arrivalReport requests) := by
  unfold Part.arrivalReport
  split
  · split
    · exact s.enterWaiting_aside
    · exact .refl s
  · next closing => exact absurd closing open'
  all_goals exact .refl s

/-- R185: the cue's end parks channels. -/
theorem Part.endCue_kick_shaper (s : Part) : s.endCue.kick.shaper = s.parkPlayed := by
  rw [(Part.kick_aside _).shaper]
  exact (Part.fetchRounds_aside 17 (Part.failCue { s with shaper := s.parkPlayed } .done)).shaper

theorem Part.parkPlayed_get (s : Part) (c : Slot) : s.parkPlayed.chans[c] = s.shaper.chans[c] ∨
    ∃ x, s.parkPlayed.chans[c] = s.shaper.chans[c].parkAt x := by
  rw [Part.parkPlayed, Shaper.mapChans_get]
  split
  · split
    · exact .inr ⟨_, rfl⟩
    · exact .inl rfl
  · exact .inl rfl

theorem Part.arrivalReport_shaper (s : Part) (requests : Vector Int 12) :
    (s.arrivalReport requests).shaper = s.shaper ∨
    (s.player.state = .closing ∧ (s.arrivalReport requests).shaper = s.parkPlayed) := by
  by_cases closing : s.player.state = .closing
  · unfold Part.arrivalReport
    rw [closing]
    dsimp only
    split
    · exact .inr ⟨rfl, s.endCue_kick_shaper⟩
    · exact .inl rfl
  · exact .inl (Part.arrivalReport_aside closing requests).shaper

theorem Part.arrivalReport_stands (s : Part) (requests : Vector Int 12) : s.Stands (s.arrivalReport requests) := by
  rcases s.arrivalReport_shaper requests with same | ⟨-, parked⟩
  · exact .of_shaper same
  · intro c
    rw [parked]
    rcases s.parkPlayed_get c with same | ⟨x, at'⟩
    · rw [same]; exact ⟨rfl, rfl, rfl⟩
    · rw [at']; exact ⟨rfl, rfl, rfl⟩

theorem Part.arrivalReport_halt (s : Part) (requests : Vector Int 12) :
    (s.arrivalReport requests).player.haltReason = s.player.haltReason := by
  by_cases closing : s.player.state = .closing
  · unfold Part.arrivalReport
    rw [closing]
    dsimp only
    split
    · exact (Part.kick_aside _).halt.trans
        (Part.fetchRounds_aside 17 (Part.failCue { s with shaper := s.parkPlayed } .done)).halt
    · rfl
  · exact (Part.arrivalReport_aside closing requests).halt

/-! ### A drive frame still outstanding -/

/-- R13, R16: the part once an outstanding frame is counted as missed and its return frame has left. -/
def Part.told (s : Part) (o : Outstanding) : Part :=
  let r := Part.emitReturn { s with gateway := s.gateway.allStale } o.cycle
  { r with gateway := { r.gateway with driveMiss := bump255 r.gateway.driveMiss, outstanding := none } }

theorem Part.settleOutstanding_none (none : s.gateway.outstanding = none) : s.settleOutstanding = s := by
  rw [Part.settleOutstanding, none]

theorem Part.settleOutstanding_some {o : Outstanding} (some : s.gateway.outstanding = some o) :
    s.settleOutstanding = if s.gateway.missLimit ≤ bump255 s.gateway.driveMiss then
      (s.told o).post .driveLink .hard 0 else s.told o := by
  rw [Part.settleOutstanding, some]
  rfl

theorem Part.settleOutstanding_steady (s : Part) : s.Steady s.settleOutstanding := by
  cases outstanding : s.gateway.outstanding with
  | none => rw [Part.settleOutstanding_none outstanding]; exact .refl s
  | some o =>
    have told : s.Steady (s.told o) := ⟨.of_same rfl rfl rfl, id, id⟩
    rw [Part.settleOutstanding_some outstanding]
    split
    · exact told.trans (Part.post_steady _ _ _ _)
    · exact told

theorem Part.settleOutstanding_halt (s : Part) : s.settleOutstanding.player.haltReason = s.player.haltReason := by
  cases outstanding : s.gateway.outstanding with
  | none => rw [Part.settleOutstanding_none outstanding]
  | some o =>
    rw [Part.settleOutstanding_some outstanding]
    split
    · exact Part.post_halt _ _ _ _
    · rfl

/-! ### What the blocks beside the sequencer and the player keep -/

/-- What no piece of a cycle after the shaper's step changes, but for a frame still outstanding. -/
structure Part.Fixed (s t : Part) : Prop where
  now : t.now = s.now := by exact rfl
  gateway : t.gateway = s.gateway := by exact rfl
  lens : t.lens = s.lens := by exact rfl
  axes : t.shaper.axes = s.shaper.axes := by exact rfl
  mode : t.lane.mode = s.lane.mode := by exact rfl
  portA : t.portA = s.portA := by exact rfl
  portB : t.portB = s.portB := by exact rfl

theorem Part.Fixed.trans (h : s.Fixed t) (k : t.Fixed u) : s.Fixed u :=
  ⟨k.now.trans h.now, k.gateway.trans h.gateway, k.lens.trans h.lens, k.axes.trans h.axes, k.mode.trans h.mode,
    k.portA.trans h.portA, k.portB.trans h.portB⟩

theorem StopWork.fixed (work : StopWork s t) : s.Fixed t where
  now := work.now
  gateway := work.gateway
  lens := work.lens
  axes := work.axes
  mode := by obtain ⟨_, answered⟩ := work.lane; exact answered.mode
  portA := work.portA
  portB := work.portB

theorem Part.zoneWork_fixed (s : Part) : s.Fixed s.zoneWork :=
  .trans (t := { s with zone := s.zone.update s.shaper }) {} (.trans (Part.zoneTests_work _).fixed {})

end

end Sys2Proof.Machine
end

section
set_option Elab.async false
/-! SETTLED. What the rest of a served cycle makes of the part at which the requests are formed. -/

namespace Sys2Proof.Machine

section
variable (m : Part)

/-! ### The parts of the cycle, one from another -/

/-- R161: the part once the sample is taken. -/
def Part.sampled : Part := m.zoned.sampleInstant

theorem Part.ended_eq : m.ended = m.sampled.checkRampEnd (m.seq.state = .ramping) := rfl

theorem Part.diverged_steady : m.stepped.Steady (m.stepped.checkDivergence m.requests) :=
  Part.checkDivergence_steady _ _

theorem Part.sampled_steady : (m.stepped.checkDivergence m.requests).Steady m.sampled :=
  (Part.zoneWork_steady _).trans (Part.sampleInstant_steady _)

theorem Part.stepped_fixed : m.stepped.Fixed m.cycled :=
  .trans (Part.checkDivergence_work _ _).fixed (.trans (Part.zoneWork_fixed _)
    (.trans (Part.sampleInstant_work _).toStopWork.fixed (.trans (Part.checkRampEnd_work _ _).fixed
      (Part.arrivalReport_work _ _).toStopWork.fixed)))

theorem Part.cycled_seq : m.cycled.seq = m.ended.seq := (Part.arrivalReport_work _ _).seq

theorem Part.ended_player : m.ended.player = m.sampled.player := Part.checkRampEnd_player _ _

/-- The shaped states are those of the step. -/
theorem Part.cycled_stands : m.stepped.Stands m.cycled :=
  m.diverged_steady.stands.trans (m.sampled_steady.stands.trans ((Part.checkRampEnd_course _ _).stands.trans
    (Part.arrivalReport_stands _ _)))

/-- With no cue at its end the whole cycle is of one course. -/
theorem Part.cycled_course (open' : m.player.state ≠ .closing) : m.stepped.Course m.cycled := by
  have closing : m.ended.player.state ≠ .closing := fun h => by
    rw [m.ended_player] at h
    exact open' (m.diverged_steady.closing (m.sampled_steady.closing h))
  exact m.diverged_steady.toCourse.trans (m.sampled_steady.toCourse.trans ((Part.checkRampEnd_course _ _).trans
    ((Part.arrivalReport_aside closing _).course m.cycled_seq)))

theorem Part.cycled_halt : m.cycled.player.haltReason =
    (m.stepped.checkDivergence m.requests).player.haltReason := by
  refine (Part.arrivalReport_halt _ _).trans ?_
  rw [m.ended_player]
  refine (Part.sampleInstant_aside _).halt.trans ?_
  unfold Part.zoned Part.zoneWork Part.zoneTests
  dsimp only
  split
  · exact Part.postAll_halt _ _
  · rfl

/-! ### The causes of a cycle -/

theorem ZoneMonitor.causes_kind {z : ZoneMonitor} {c : CauseKind × Category × Nat} (member : c ∈ z.causes) :
    c.1 = .zone ∨ c.1 = .boundary := by
  unfold ZoneMonitor.causes at member
  split at member
  · exact absurd member List.not_mem_nil
  · obtain ⟨i, -, found⟩ := List.mem_filterMap.mp member
    split at found
    · split at found
      · cases found; exact .inl rfl
      · cases found; exact .inr rfl
      · exact nomatch found
    · exact nomatch found

theorem Part.zoneWork_seq (s : Part) : s.zoneWork.seq = (Part.zoneTests { s with zone := s.zone.update s.shaper }).seq := rfl

/-- R73: the zone tests add at most Zone and Boundary. -/
theorem Part.zoneWork_bit (s : Part) {n : Nat} (zone : n ≠ 2) (boundary : n ≠ 3) :
    s.zoneWork.seq.causes.getLsbD n = s.seq.causes.getLsbD n := by
  rw [Part.zoneWork_seq, Part.zoneTests]
  split
  · rw [Part.postAll_causes, List.any_eq_false.mpr, Bool.or_false]
    intro c member
    rcases ZoneMonitor.causes_kind member with kind | kind
    · rw [kind, beq_iff_eq]; exact zone
    · rw [kind, beq_iff_eq]; exact boundary
  · rfl

theorem Part.ended_causes : m.ended.seq.causes = m.zoned.seq.causes := by
  have sampled : m.sampled.seq = m.zoned.seq := (Part.sampleInstant_work _).seq
  rw [m.ended_eq, Part.checkRampEnd]
  split
  · show m.sampled.seq.causes = m.zoned.seq.causes
    rw [sampled]
  · rw [sampled]

theorem Part.cycled_bit {n : Nat} (zone : n ≠ 2) (boundary : n ≠ 3) :
    m.cycled.seq.causes.getLsbD n = (m.stepped.checkDivergence m.requests).seq.causes.getLsbD n := by
  rw [m.cycled_seq, m.ended_causes]
  exact Part.zoneWork_bit _ zone boundary

/-- R81: a ramp stays a ramp but for a Hard cause of the zone tests. -/
theorem Part.postAll_ramping (cs : List (CauseKind × Category × Nat)) (s : Part) (ramping : s.seq.state = .ramping) :
    (s.postAll cs).seq.state = .ramping ∨ ((s.postAll cs).seq.state = .safeOff ∧ cs ≠ []) := by
  induction cs generalizing s with
  | nil => exact .inl ramping
  | cons c cs ih =>
    have state := s.post_state c.1 c.2.1 c.2.2
    rw [ramping] at state
    rw [Part.postAll_cons]
    cases category : c.2.1
    case hard =>
      rw [category] at state
      exact .inr ⟨(Part.postAll_course cs _).off state, List.cons_ne_nil _ _⟩
    all_goals
      rw [category] at state
      exact (ih _ state).imp_right fun off => ⟨off.1, List.cons_ne_nil _ _⟩

theorem Part.zoneWork_ramping (s : Part) (ramping : s.seq.state = .ramping) : s.zoneWork.seq.state = .ramping ∨
    (s.zoneWork.seq.state = .safeOff ∧
      (s.zoneWork.seq.causes.getLsbD 2 = true ∨ s.zoneWork.seq.causes.getLsbD 3 = true)) := by
  rw [Part.zoneWork_seq, Part.zoneTests]
  split
  · refine (Part.postAll_ramping _ { s with zone := s.zone.update s.shaper } ramping).imp_right fun ⟨off, posted⟩ =>
      ⟨off, ?_⟩
    obtain ⟨c, member⟩ := List.exists_mem_of_ne_nil _ posted
    rw [Part.postAll_causes, Part.postAll_causes, Bool.or_eq_true, Bool.or_eq_true, List.any_eq_true, List.any_eq_true]
    rcases ZoneMonitor.causes_kind member with kind | kind
    · exact .inl (.inr ⟨c, member, by rw [kind]; rfl⟩)
    · exact .inr (.inr ⟨c, member, by rw [kind]; rfl⟩)
  · exact .inl ramping

theorem Part.divergeAll_ramping (cs : List Slot) (s : Part) (ramping : s.seq.state = .ramping) :
    (s.divergeAll cs).seq.state = .ramping := by
  induction cs generalizing s with
  | nil => exact ramping
  | cons c cs ih =>
    refine ih (s.diverge c) ((s.post_state .divergence .hold c.val).trans ?_)
    rw [ramping]
    rfl

theorem Part.diverged_ramping (ramping : m.seq.state = .ramping) :
    (m.stepped.checkDivergence m.requests).seq.state = .ramping := by
  rw [Part.checkDivergence_eq]
  split
  · exact Part.divergeAll_ramping _ m.stepped ramping
  · exact ramping

/-! ### The drive frame -/

theorem Part.settled_fixed (s : Part) : s.settleOutstanding.lens = s.lens ∧
    s.settleOutstanding.shaper.axes = s.shaper.axes ∧ s.settleOutstanding.lane.mode = s.lane.mode ∧
    s.settleOutstanding.now = s.now ∧ s.settleOutstanding.portB = s.portB := by
  cases outstanding : s.gateway.outstanding with
  | none => rw [Part.settleOutstanding_none outstanding]; exact ⟨rfl, rfl, rfl, rfl, rfl⟩
  | some o =>
    rw [Part.settleOutstanding_some outstanding]
    split
    · have fixed := ((s.told o).post_work .driveLink .hard 0).fixed
      exact ⟨fixed.lens, fixed.axes, fixed.mode, fixed.now, fixed.portB⟩
    · exact ⟨rfl, rfl, rfl, rfl, rfl⟩

/-- R13: the frame still outstanding, once it is settled. -/
theorem Part.settled_gateway (s : Part) {o : Outstanding} (some : s.gateway.outstanding = some o) :
    s.settleOutstanding.gateway = (s.told o).gateway ∧ s.settleOutstanding.portA = (s.told o).portA := by
  rw [Part.settleOutstanding_some some]
  split
  · have fixed := ((s.told o).post_work .driveLink .hard 0).fixed
    exact ⟨fixed.gateway, fixed.portA⟩
  · exact ⟨rfl, rfl⟩

/-- R8, R13: DriveLink posted, or nothing but the frame settled. -/
theorem Part.settled_seq (s : Part) : s.settleOutstanding.seq = s.seq ∨
    (s.settleOutstanding.seq.state = .safeOff ∧ s.settleOutstanding.seq.causes.getLsbD 6 = true) := by
  cases outstanding : s.gateway.outstanding with
  | none => rw [Part.settleOutstanding_none outstanding]; exact .inl rfl
  | some o =>
    rw [Part.settleOutstanding_some outstanding]
    split
    · refine .inr ⟨Part.post_state _ .driveLink .hard 0, ?_⟩
      rw [Part.post_causes, show (6 == CauseKind.driveLink.bit) = true from rfl, Bool.or_true]
    · exact .inl rfl

theorem Part.emitDrive_seq (s : Part) (setpoints : Vector Int 12) :
    (s.emitDrive setpoints).seq = s.settleOutstanding.seq ∧ (s.emitDrive setpoints).shaper = s.settleOutstanding.shaper ∧
    (s.emitDrive setpoints).lens = s.settleOutstanding.lens ∧ (s.emitDrive setpoints).player = s.settleOutstanding.player :=
  ⟨rfl, rfl, rfl, rfl⟩

end

end Sys2Proof.Machine
end

section
set_option Elab.async false
/-! SETTLED. A served cycle as the statements spell it: its step and what follows. -/

namespace Sys2Proof.Machine

section
variable (m : Part)

/-- The part the cycle leaves, beside its gateway and its drive frames. -/
theorem Part.stepAndEmit_beside : m.stepAndEmit.seq = m.cycled.settleOutstanding.seq ∧
    m.stepAndEmit.shaper = m.cycled.settleOutstanding.shaper ∧
    m.stepAndEmit.lens = m.cycled.settleOutstanding.lens ∧
    m.stepAndEmit.player = m.cycled.settleOutstanding.player :=
  Part.emitDrive_seq m.cycled _

theorem Part.stepAndEmit_lens : m.stepAndEmit.lens = m.formLenses := by
  rw [m.stepAndEmit_beside.2.2.1, m.cycled.settled_fixed.1, m.stepped_fixed.lens]
  rfl

theorem Part.stepAndEmit_axes : m.stepAndEmit.shaper.axes = m.shaper.axes := by
  rw [m.stepAndEmit_beside.2.1, m.cycled.settled_fixed.2.1, m.stepped_fixed.axes]
  rfl

theorem Part.stepAndEmit_stands : m.stepped.Stands m.stepAndEmit :=
  m.cycled_stands.trans (m.cycled.settleOutstanding_steady.stands.trans (.of_shaper m.stepAndEmit_beside.2.1))

/-- The shaped state of a channel after the cycle is that of its step. -/
theorem Part.stepAndEmit_shaped (c : Slot) : m.stepAndEmit.shaper.chans[c].p = m.stepped.shaper.chans[c].p ∧
    m.stepAndEmit.shaper.chans[c].v = m.stepped.shaper.chans[c].v := by
  obtain ⟨p, v, -⟩ := m.stepAndEmit_stands c
  exact ⟨p, v⟩

theorem Part.settled_course : m.cycled.Course m.stepAndEmit :=
  m.cycled.settleOutstanding_steady.toCourse.trans (.of_same (by rw [m.stepAndEmit_beside.2.1])
    (by rw [m.stepAndEmit_beside.1]) (by rw [m.stepAndEmit_beside.1]))

/-- With no change of stop state and no cue at its end a channel changes in its shaped state only. -/
theorem Part.stepAndEmit_kept (same : m.stepAndEmit.seq.state.rank = m.seq.state.rank)
    (open' : m.player.state ≠ .closing) (c : Slot) : m.stepAndEmit.shaper.chans[c] =
      { m.shaper.chans[c] with p := m.stepAndEmit.shaper.chans[c].p, v := m.stepAndEmit.shaper.chans[c].v } := by
  have course := (m.cycled_course open').trans m.settled_course
  rcases course.onward with ⟨chans, -⟩ | more
  · rw [chans]
    exact m.stepped_kept c
  · exact absurd more (by rw [same]; exact Nat.lt_irrefl _)

/-! ### Divergence -/

theorem Part.mem_divergent_iff (c : Slot) : c ∈ m.stepped.shaper.divergent m.requests ↔
    m.shaper.axes[c].present = true ∧ m.shaper.chans[c].source = .take ∧ m.shaper.axes[c].divergence ≠ 0 ∧
    m.shaper.axes[c].divergence <
      (countOf m.stepAndEmit.shaper.chans[c].p - countOf m.requests[c]).natAbs := by
  have axes : m.stepped.shaper.axes = m.shaper.axes := rfl
  rw [(m.stepAndEmit_shaped c).1, Shaper.divergent, List.mem_filter, axes, m.stepped_source]
  simp only [allSlots, List.mem_finRange, true_and, Bool.and_eq_true, decide_eq_true_eq, and_assoc]

theorem Part.divergent_ne_nil_iff : m.stepped.shaper.divergent m.requests ≠ [] ↔ ∃ c : Slot,
    m.shaper.axes[c].present = true ∧ m.shaper.chans[c].source = .take ∧ m.shaper.axes[c].divergence ≠ 0 ∧
    m.shaper.axes[c].divergence <
      (countOf m.stepAndEmit.shaper.chans[c].p - countOf m.requests[c]).natAbs := by
  rw [← List.isEmpty_eq_false_iff, List.isEmpty_eq_false_iff_exists_mem]
  exact exists_congr m.mem_divergent_iff

/-- R13: a frame missed posts DriveLink only. -/
theorem Part.settleOutstanding_bit (s : Part) {n : Nat} (other : n ≠ 6) :
    s.settleOutstanding.seq.causes.getLsbD n = s.seq.causes.getLsbD n := by
  cases outstanding : s.gateway.outstanding with
  | none => rw [Part.settleOutstanding_none outstanding]
  | some o =>
    rw [Part.settleOutstanding_some outstanding]
    split
    · rw [Part.post_causes, show (n == CauseKind.driveLink.bit) = false from beq_false_of_ne other, Bool.or_false]
      rfl
    · rfl

theorem Part.stepAndEmit_bit8 : m.stepAndEmit.seq.causes.getLsbD 8 =
    (m.stepped.checkDivergence m.requests).seq.causes.getLsbD 8 := by
  rw [m.stepAndEmit_beside.1, Part.settleOutstanding_bit _ (by decide), m.cycled_bit (by decide) (by decide)]

theorem Part.stepAndEmit_halt : m.stepAndEmit.player.haltReason =
    (m.stepped.checkDivergence m.requests).player.haltReason := by
  rw [m.stepAndEmit_beside.2.2.2, Part.settleOutstanding_halt, m.cycled_halt]

theorem Part.stepAndEmit_left (left : (m.stepped.checkDivergence m.requests).seq.state ≠ .running) :
    m.stepAndEmit.seq.state ≠ .running := by
  have sampled := m.sampled_steady.left left
  have ended : m.cycled.seq.state ≠ .running := by
    rw [m.cycled_seq]
    exact (Part.checkRampEnd_course _ _).left sampled
  exact m.settled_course.left ended

/-! ### The end of a ramp -/

theorem Part.stepped_sampled : m.stepped.Fixed m.sampled :=
  .trans (Part.checkDivergence_work _ _).fixed (.trans (Part.zoneWork_fixed _)
    (Part.sampleInstant_work _).toStopWork.fixed)

theorem Part.sampled_axes : m.sampled.shaper.axes = m.shaper.axes := m.stepped_sampled.axes

theorem Part.sampled_gateway : m.sampled.gateway = m.gateway := m.stepped_sampled.gateway

theorem Part.sampled_v (c : Slot) : m.sampled.shaper.chans[c].v = m.stepAndEmit.shaper.chans[c].v := by
  have sampled := (m.diverged_steady.trans m.sampled_steady).stands
  obtain ⟨-, v, -⟩ := sampled c
  rw [v, (m.stepAndEmit_shaped c).2]

theorem Part.stepAndEmit_rampEnd (ramping : m.seq.state = .ramping) :
    (m.stepAndEmit.seq.state = .safeOff ∧ (m.stepAndEmit.seq.causes.getLsbD 2 = true ∨
      m.stepAndEmit.seq.causes.getLsbD 3 = true ∨ m.stepAndEmit.seq.causes.getLsbD 6 = true)) ∨
    (m.sampled.seq.state = .ramping ∧ m.stepAndEmit.seq = (m.sampled.checkRampEnd true).seq) := by
  have sampled : m.sampled.seq = m.zoned.seq := (Part.sampleInstant_work _).seq
  have ended : m.ended = m.sampled.checkRampEnd true := by rw [m.ended_eq, ramping]; rfl
  rcases Part.zoneWork_ramping _ (m.diverged_ramping ramping) with still | ⟨off, cause⟩
  · rcases m.cycled.settled_seq with same | ⟨off, link⟩
    · refine .inr ⟨by rw [sampled]; exact still, ?_⟩
      rw [m.stepAndEmit_beside.1, same, m.cycled_seq, ended]
    · rw [m.stepAndEmit_beside.1]
      exact .inl ⟨off, .inr (.inr link)⟩
  · have same : m.cycled.seq = m.zoned.seq := by
      have still : ¬ m.sampled.seq.state = .ramping := by rw [sampled]; exact off ▸ StopState.noConfusion
      rw [m.cycled_seq, ended, Part.checkRampEnd, if_neg (fun ends => still ends.2.1), sampled]
    have causes := m.settled_course.causes
    rw [same] at causes
    refine .inl ⟨m.settled_course.off (same ▸ off), cause.elim (fun zone => .inl (causes 2 zone)) fun boundary =>
      .inr (.inl (causes 3 boundary))⟩

theorem Part.stepAndEmit_noRampEnd (ramping : m.seq.state ≠ .ramping) (settling : m.seq.state ≠ .settling) :
    m.stepAndEmit.seq.state ≠ .settling := by
  intro settled
  rw [m.stepAndEmit_beside.1] at settled
  have cycled := m.cycled.settleOutstanding_steady.settling settled
  rw [m.cycled_seq, m.ended_eq, Part.checkRampEnd, if_neg (by simp [ramping])] at cycled
  exact settling (m.diverged_steady.settling (m.sampled_steady.settling cycled))

/-! ### The whole part -/

theorem Part.stepAndEmit_stepped : { m.shaper with chans := (Vector.ofFn fun c : Slot =>
    { m.shaper.chans[c] with p := m.stepAndEmit.shaper.chans[c].p, v := m.stepAndEmit.shaper.chans[c].v }) } =
      m.stepped.shaper := by
  have chans : (Vector.ofFn fun c : Slot => { m.shaper.chans[c] with
      p := m.stepAndEmit.shaper.chans[c].p, v := m.stepAndEmit.shaper.chans[c].v }) = m.stepped.shaper.chans := by
    ext c hc
    obtain ⟨p, v⟩ := m.stepAndEmit_shaped ⟨c, hc⟩
    rw [Vector.getElem_ofFn, p, v]
    exact (m.stepped_kept ⟨c, hc⟩).symm
  rw [chans]
  rfl

theorem Part.stepAndEmit_afterStep : m.afterStep m.stepAndEmit m.requests = m.cycled := by
  unfold Part.afterStep
  rw [m.stepAndEmit_stepped, m.stepAndEmit_lens]
  rfl

theorem Part.emitDrive_missed (s : Part) (setpoints : Vector Int 12) : s.emitDrive setpoints =
    { s.missed (s.emitDrive setpoints) with
      gateway := (s.emitDrive setpoints).gateway, portB := (s.emitDrive setpoints).portB } := by
  cases outstanding : s.gateway.outstanding with
  | none =>
    have settled := Part.settleOutstanding_none outstanding
    unfold Part.missed
    rw [if_pos outstanding]
    unfold Part.emitDrive
    rw [settled]
  | some o =>
    have some' : ¬ s.gateway.outstanding = none := by rw [outstanding]; exact Option.some_ne_none o
    have settled := Part.settleOutstanding_some outstanding
    obtain ⟨gateway, portA⟩ := s.settled_gateway outstanding
    have miss : (s.emitDrive setpoints).gateway.driveMiss = bump255 s.gateway.driveMiss :=
      congrArg Gateway.driveMiss gateway
    have feedback : (s.emitDrive setpoints).gateway.feedback = s.gateway.allStale.feedback := by
      show s.settleOutstanding.gateway.feedback = (s.told o).gateway.feedback
      rw [gateway]
    have portA : (s.emitDrive setpoints).portA = (s.told o).portA := portA
    have told : { s with
        gateway := { s.gateway with
          outstanding := none, driveMiss := bump255 s.gateway.driveMiss, feedback := s.gateway.allStale.feedback }
        lane := { s.lane with queue := (takeReplies 480 s.lane.queue).2 }
        portA := (s.told o).portA } = s.told o := rfl
    unfold Part.missed
    rw [if_neg some']
    dsimp only
    rw [miss, feedback, portA, told, ← settled]
    rfl

theorem Part.stepAndEmit_missed : m.stepAndEmit =
    { m.cycled.missed m.stepAndEmit with gateway := m.stepAndEmit.gateway, portB := m.stepAndEmit.portB } := by
  rw [m.stepAndEmit_eq]
  exact m.cycled.emitDrive_missed _

theorem Part.stepAndEmit_cycleSteps : m.CycleSteps m.stepAndEmit m.requests where
  axes := m.stepAndEmit_axes
  target := by rw [m.stepAndEmit_lens]; rfl
  lens := fun l => by rw [m.stepAndEmit_lens]; exact Part.lensAsks l
  motion := Part.motionAsks
  step := fun c => by
    obtain ⟨p, v⟩ := m.stepAndEmit_shaped c
    rw [p, v]
    exact Part.stepped_stepsTo c
  kept := fun same open' c => by
    refine m.stepAndEmit_kept ?_ open' c
    rcases same with state | ⟨ramping, settling⟩
    · rw [state]
    · rw [ramping, settling]; rfl
  divergence := by
    intro strays
    have some_iff := m.divergent_ne_nil_iff
    refine ⟨fun playing stray => ?_, fun none => ?_⟩
    · have some := some_iff.mpr stray
      have check : m.stepped.checkDivergence m.requests =
        m.stepped.divergeAll (m.stepped.shaper.divergent m.requests) := if_pos playing
      refine ⟨?_, ?_, ?_⟩
      · rw [m.stepAndEmit_bit8, check, Part.divergeAll_bit, List.isEmpty_eq_false_iff.mpr some]
        exact Bool.or_true _
      · refine m.stepAndEmit_left ?_
        rw [check]
        exact Part.divergeAll_running some _
      · rw [m.stepAndEmit_halt, check, Part.divergeAll_halt]
        simp only [some, ne_eq, not_false_eq_true, true_and]
        rfl
    · rw [m.stepAndEmit_bit8, Part.checkDivergence_eq]
      split
      next playing =>
        have clean : m.stepped.shaper.divergent m.requests = [] := by
          refine Classical.byContradiction fun some => ?_
          exact none ⟨playing, some_iff.mp some⟩
        rw [clean]
        rfl
      next => rfl
  rampEnd := fun ramping => by
    refine (m.stepAndEmit_rampEnd ramping).imp_right fun ⟨still, seq⟩ => ?_
    have axes : m.sampled.shaper.axes = m.shaper.axes := m.sampled_axes
    have rest_iff : m.sampled.shaper.atRest = true ↔ ∀ a : Axis, m.shaper.axes[Axis.slot a].present = true →
        m.stepAndEmit.shaper.chans[Axis.slot a].v = 0 := by
      simp only [Shaper.atRest, Shaper.motion, List.all_eq_true, List.mem_filter, allAxes, List.mem_finRange, true_and,
        axes, beq_iff_eq, m.sampled_v]
    dsimp only
    rw [← rest_iff, seq, Part.checkRampEnd]
    refine ⟨fun moves => ?_, fun rest => ?_⟩
    · rw [if_neg fun ends => moves ends.2.2]
      exact still
    · rw [if_pos ⟨rfl, still, rest⟩]
      refine ⟨rfl, congrArg Gateway.cycle m.sampled_gateway, rfl, fun a present => ?_⟩
      have entered := Part.onAxes_axes { m.sampled with seq := { m.sampled.seq with
        state := .settling, phaseStart := m.sampled.gateway.cycle, phaseCount := 0 } }
        (fun _ _ x => { x with stillRun := 0, reference := none }) a
      rw [if_pos (by rw [← axes] at present; exact present)] at entered
      rw [Part.enterSettling, entered]
      exact ⟨rfl, rfl⟩
  noRampEnd := m.stepAndEmit_noRampEnd
  work := by
    rw [m.stepAndEmit_afterStep]
    exact m.stepAndEmit_missed

end

end Sys2Proof.Machine
end

section
set_option Elab.async false
/-! SETTLED. Served cycles: what a cycle frame and a fill cycle leave, and the slots of the drive frame. -/

namespace Sys2Proof.Machine

section
variable (s : Part)

/-! ### The player's step on the way of a cycle -/

theorem Part.starve_course : s.Course s.starve := (s.post_course _ _ _).trans (.of_same rfl rfl rfl)

theorem Part.makeStep_course (tau : Nat) (st : Standing) : s.Course (s.makeStep tau st) := by
  have filled (p : Part) : p.Course p.fillPrefetch :=
    (Part.fillRounds_aside 4 p).course (Part.fillPrefetch_work p).seq
  refine Part.Course.trans ?_ (filled _)
  exact .of_same rfl rfl rfl

theorem Part.tellRecorder_course : s.Course s.tellRecorder := by
  unfold Part.tellRecorder
  split
  · next armed => exact s.startClock_aside.course (s.startClock_work armed.1).seq
  · exact .refl s

theorem Part.kick_course : s.Course s.kick := s.kick_aside.course s.kick_work.seq

theorem Part.playStep_course : s.Course s.playStep := by
  unfold Part.playStep
  dsimp only
  split
  · exact s.starve_course
  · next st _ =>
    refine Part.Course.trans ?_ (Part.kick_course _)
    have made := s.makeStep_course s.player.nextTau st
    split
    · exact made.trans (Part.tellRecorder_course _)
    · exact made

theorem Part.fetchRounds_seq (n : Nat) (s : Part) : (Part.fetchRounds n s).seq = s.seq := by
  induction n generalizing s with
  | zero => rfl
  | succ n ih =>
    unfold Part.fetchRounds
    split
    · rfl
    split
    · exact ih (s.failCue _)
    · rfl

theorem Part.fetchNow_course : s.Course s.fetchNow := by
  have fetched : s.Course s.enterFetching :=
    (Part.fetchRounds_aside 17 s).course (Part.fetchRounds_seq 17 s)
  exact fetched.trans (Part.kick_course _)

theorem Part.checkAutoPoll_course : s.Course s.checkAutoPoll := by
  unfold Part.checkAutoPoll
  dsimp only
  split
  · refine .trans (t := { s with player := { s.player with autoCount := 0 } }) (.of_same rfl rfl rfl) ?_
    split
    · exact Part.fetchNow_course _
    · exact .refl _
  · exact .refl s

theorem Part.playerServing_course : s.Course s.playerServing := by
  unfold Part.playerServing
  split
  case h_1 =>
    exact .trans (t := { s with player := { s.player with autoCount := bump65535 s.player.autoCount } })
      (.of_same rfl rfl rfl) (Part.checkAutoPoll_course _)
  case h_2 =>
    split
    · exact .trans (t := s.enterPlaying) (.of_same rfl rfl rfl) (Part.playStep_course _)
    · exact .refl s
  case h_3 => exact s.playStep_course
  all_goals exact .refl s

theorem Part.recorderServing_course : s.Course s.recorderServing :=
  s.recorderServing_aside.course s.recorderServing_work.seq

end

/-! ### A cycle up to the forming of its requests -/

/-- What the beginning of a served cycle leaves of the part that it served. -/
structure Part.Begun (s m : Part) : Prop where
  feedback : m.gateway.feedback = s.gateway.feedback
  outstanding : m.gateway.outstanding = s.gateway.outstanding
  driveMiss : m.gateway.driveMiss = s.gateway.driveMiss
  missLimit : m.gateway.missLimit = s.gateway.missLimit
  mode : m.lane.mode = s.lane.mode
  axes : m.shaper.axes = s.shaper.axes
  portA : m.portA = s.portA
  portB : m.portB = s.portB
  lens : ∀ l : LensIx, m.lens.chans[l].mode = s.lens.chans[l].mode
  course : s.Course m
  play : s.PlayLaw → m.PlayLaw

section
variable {s m u : Part}

theorem Part.Begun.work (begun : s.Begun m) (work : StopWork m u) (course : m.Course u) : s.Begun u where
  feedback := (congrArg (·.feedback) work.gateway).trans begun.feedback
  outstanding := (congrArg (·.outstanding) work.gateway).trans begun.outstanding
  driveMiss := (congrArg (·.driveMiss) work.gateway).trans begun.driveMiss
  missLimit := (congrArg (·.missLimit) work.gateway).trans begun.missLimit
  mode := work.fixed.mode.trans begun.mode
  axes := work.axes.trans begun.axes
  portA := work.portA.trans begun.portA
  portB := work.portB.trans begun.portB
  lens := fun l => by rw [work.lens]; exact begun.lens l
  course := begun.course.trans course
  play := fun law => work.play (begun.play law)

/-- The sequencer, the recorder's clock and the player's step begin a cycle. -/
theorem Part.Begun.servings (begun : s.Begun m) : s.Begun m.recorderServing.playerServing :=
  (begun.work m.recorderServing_work.toStopWork m.recorderServing_course).work
    (Part.playerServing_work _) (Part.playerServing_course _)

theorem Part.Begun.sequencer (begun : s.Begun m) : s.Begun m.sequencerServing :=
  begun.work m.sequencerServing_work m.sequencerServing_course

theorem Part.checkLink_course (s : Part) : s.Course s.checkLink := by
  unfold Part.checkLink
  split
  · exact s.post_course _ _ _
  · exact .refl s

theorem LensMapper.begun_mode (g : LensMapper) (l : LensIx) : g.begun.chans[l].mode = g.chans[l].mode := by
  simp only [LensMapper.begun, Fin.getElem_fin, Vector.getElem_ofFn]
  split <;> rfl

theorem Part.Begun.first {g : Gateway} {now : Nat} (feedback : g.feedback = s.gateway.feedback)
    (outstanding : g.outstanding = s.gateway.outstanding) (driveMiss : g.driveMiss = s.gateway.driveMiss)
    (missLimit : g.missLimit = s.gateway.missLimit) :
    s.Begun { s with now := now, gateway := g, lens := s.lens.begun } where
  feedback := feedback
  outstanding := outstanding
  driveMiss := driveMiss
  missLimit := missLimit
  mode := rfl
  axes := rfl
  portA := rfl
  portB := rfl
  lens := s.lens.begun_mode
  course := .of_same rfl rfl rfl
  play := fun law => law

/-! ### A drive frame missed -/

theorem Part.cycled_gateway (m : Part) : m.cycled.gateway = m.gateway := m.stepped_fixed.gateway

theorem Part.cycled_ports (m : Part) : m.cycled.portA = m.portA ∧ m.cycled.portB = m.portB :=
  ⟨m.stepped_fixed.portA, m.stepped_fixed.portB⟩

/-- R13: nothing of a slot's record but that it is stale. -/
theorem Part.settleOutstanding_actual (s : Part) (c : Slot) :
    s.settleOutstanding.gateway.feedback[c].actual = s.gateway.feedback[c].actual := by
  cases outstanding : s.gateway.outstanding with
  | none => rw [Part.settleOutstanding_none outstanding]
  | some o =>
    rw [(s.settled_gateway outstanding).1]
    simp [Part.told, Part.emitReturn, Gateway.allStale]

theorem Gateway.allStale_get (g : Gateway) (c : Slot) : g.allStale.feedback[c] = { g.feedback[c] with stale := true } := by
  simp [Gateway.allStale]

/-- R13: what a cycle leaves of a drive frame still outstanding. -/
theorem Part.Begun.missSettled (begun : s.Begun m) : s.MissSettled m.stepAndEmit := by
  unfold Part.MissSettled
  have outstanding : m.cycled.gateway.outstanding = s.gateway.outstanding := by
    rw [m.cycled_gateway, begun.outstanding]
  have driveMiss : m.cycled.gateway.driveMiss = s.gateway.driveMiss := by rw [m.cycled_gateway, begun.driveMiss]
  have feedback : m.cycled.gateway.feedback = s.gateway.feedback := by rw [m.cycled_gateway, begun.feedback]
  have portA : m.cycled.portA = s.portA := by rw [m.cycled_ports.1, begun.portA]
  rw [m.stepAndEmit_eq]
  cases out : s.gateway.outstanding with
  | none =>
    have settled : m.cycled.settleOutstanding = m.cycled := Part.settleOutstanding_none (outstanding.trans out)
    have port : m.cycled.settleOutstanding.portA = s.portA := by rw [settled, portA]
    have miss : m.cycled.settleOutstanding.gateway.driveMiss = s.gateway.driveMiss := by rw [settled, driveMiss]
    have record : m.cycled.settleOutstanding.gateway.feedback = s.gateway.feedback := by rw [settled, feedback]
    exact ⟨port, miss, record⟩
  | some o =>
    have out' := outstanding.trans out
    obtain ⟨gateway, port⟩ := m.cycled.settled_gateway out'
    have miss : m.cycled.settleOutstanding.gateway.driveMiss = bump255 s.gateway.driveMiss := by
      rw [gateway, ← driveMiss]; rfl
    have record : m.cycled.settleOutstanding.gateway.feedback = m.cycled.gateway.allStale.feedback := by
      rw [gateway]; rfl
    refine ⟨⟨_, port.trans (congrArg (· ++ [_]) portA), rfl, fun c => ?_, fun a => ?_⟩, miss, fun c => ?_,
      fun limit => ?_⟩
    · simp [Gateway.allStale]
    · simp [Part.feedbackValue, Gateway.allStale, lensOf_motion, feedback]
    · show m.cycled.settleOutstanding.gateway.feedback[c] = _
      rw [record, Gateway.allStale_get, feedback]
    · have reached : m.cycled.gateway.missLimit ≤ bump255 m.cycled.gateway.driveMiss := by
        rw [m.cycled_gateway, begun.missLimit, begun.driveMiss]
        exact Nat.le_trans limit (Nat.le_of_eq miss)
      have settled := Part.settleOutstanding_some out'
      rw [if_pos reached] at settled
      show m.cycled.settleOutstanding.seq.state = .safeOff ∧ m.cycled.settleOutstanding.seq.causes.getLsbD 6 = true
      rw [settled]
      refine ⟨Part.post_state _ .driveLink .hard 0, ?_⟩
      rw [Part.post_causes, show (6 == CauseKind.driveLink.bit) = true from rfl, Bool.or_true]

end

end Sys2Proof.Machine
end

section
set_option Elab.async false
/-! SETTLED. The drive frame of a served cycle, and served cycles from their beginning. -/

namespace Sys2Proof.Machine

/-! ### The drive frame that leaves -/

/-- R10: the drive frame that the cycle emits. -/
def Part.emitted (m : Part) : DriveFrame :=
  ⟨m.cycled.settleOutstanding.gateway.cycle,
    Vector.ofFn fun c : Slot => m.cycled.settleOutstanding.driveSlot m.stepped.setpoints c⟩

section
variable {s m : Part}

theorem Part.emitted_slot (m : Part) (c : Slot) :
    m.emitted.slots[c] = m.cycled.settleOutstanding.driveSlot m.stepped.setpoints c := by
  simp [Part.emitted]

/-- R13: of the gateway a cycle changes the feedback, the drive-miss count and the outstanding frame. -/
theorem Part.settleOutstanding_gateway (s : Part) : s.settleOutstanding.gateway = { s.gateway with
    driveMiss := s.settleOutstanding.gateway.driveMiss, feedback := s.settleOutstanding.gateway.feedback
    outstanding := s.settleOutstanding.gateway.outstanding } := by
  cases outstanding : s.gateway.outstanding with
  | none => rw [Part.settleOutstanding_none outstanding]
  | some o => rw [(s.settled_gateway outstanding).1]; rfl

/-- R10: the frame emitted, as it is recorded. -/
def Part.emittedRecord (m : Part) : Outstanding :=
  { cycle := m.emitted.cycle
    setpoints := Vector.ofFn fun c : Slot => m.emitted.slots[c].setpoint
    torque := Vector.ofFn fun c : Slot => m.emitted.slots[c].torque }

theorem Part.emitted_cycle (m : Part) : m.emitted.cycle = m.gateway.cycle := by
  have cycle : m.emitted.cycle = m.cycled.gateway.cycle := by
    show m.cycled.settleOutstanding.gateway.cycle = _
    rw [Part.settleOutstanding_gateway]
  rw [cycle, m.cycled_gateway]

theorem Part.stepAndEmit_gateway (m : Part) : m.stepAndEmit.gateway = { m.gateway with
    driveMiss := m.stepAndEmit.gateway.driveMiss, feedback := m.stepAndEmit.gateway.feedback
    outstanding := some m.emittedRecord } := by
  have gateway := m.cycled.settleOutstanding_gateway
  rw [m.cycled_gateway] at gateway
  rw [m.stepAndEmit_eq]
  exact congrArg (fun g : Gateway => { g with outstanding := some m.emittedRecord }) gateway

theorem Part.stepAndEmit_portB (m : Part) : m.stepAndEmit.portB = m.portB ++ [m.emitted] := by
  rw [m.stepAndEmit_eq]
  have port : m.cycled.settleOutstanding.portB = m.portB := by
    rw [(Part.settled_fixed _).2.2.2.2, m.cycled_ports.2]
  exact congrArg (· ++ [m.emitted]) port

theorem Part.stepAndEmit_now (m : Part) : m.stepAndEmit.now = m.now := by
  rw [m.stepAndEmit_eq]
  exact (Part.settled_fixed _).2.2.2.1.trans m.stepped_fixed.now

theorem Part.stepAndEmit_mode (m : Part) : m.stepAndEmit.lane.mode = m.lane.mode := by
  rw [m.stepAndEmit_eq]
  exact (Part.settled_fixed _).2.2.1.trans m.stepped_fixed.mode

/-! ### The slots -/

theorem Axis.slot_ne_lens (a : Axis) (l : LensIx) : Axis.slot a ≠ LensIx.slot l := fun same => by
  have none := lensOf_motion a
  rw [same, lensOf_lens] at none
  exact nomatch none

theorem LensIx.slot_not_motion (l : LensIx) : ¬ (LensIx.slot l).val < 8 := by
  simp [LensIx.slot]

theorem StopState.torque_eq (st : StopState) : st.torque = (st != .safeOff) := by
  cases st <;> rfl

/-- R10: the slots of a part that drives a channel where the served one does. -/
theorem Part.driveSlot_idle {p : Part} {setpoints : Vector Int 12} {c : Slot} (idle : ¬ p.Driven c) :
    p.driveSlot setpoints c = ⟨p.gateway.feedback[c].actual, false, false⟩ := by
  unfold Part.driveSlot
  dsimp only
  split
  · rfl
  next on =>
    obtain ⟨run, present⟩ := not_or.mp on
    have present : p.shaper.axes[c].present = true := by simpa using present
    have run : p.lane.mode = .run := by
      cases mode : p.lane.mode
      · exact absurd mode run
      · rfl
    rcases Slot.motion_or_lens c with ⟨a, rfl⟩ | ⟨l, rfl⟩
    · exact absurd ⟨run, present, fun l same => absurd same (Axis.slot_ne_lens a l)⟩ idle
    · have off : p.lens.chans[l].mode = .off := by
        refine Classical.byContradiction fun on => ?_
        refine idle ⟨run, present, fun l' same => ?_⟩
        cases LensIx.slot_inj same
        exact on
      rw [dif_neg (LensIx.slot_not_motion l), lensOf_lens]
      exact if_pos off

theorem Part.driveSlot_motion {p : Part} {setpoints : Vector Int 12} {a : Axis} (driven : p.Driven (Axis.slot a)) :
    p.driveSlot setpoints (Axis.slot a) = ⟨setpoints[Axis.slot a], p.torqueFlag a, p.releaseFlag a⟩ := by
  obtain ⟨run, present, -⟩ := driven
  unfold Part.driveSlot
  dsimp only
  rw [if_neg (by rw [run, present]; simp)]
  exact dif_pos a.isLt

theorem Part.driveSlot_lens {p : Part} {setpoints : Vector Int 12} {l : LensIx} (driven : p.Driven (LensIx.slot l)) :
    p.driveSlot setpoints (LensIx.slot l) = ⟨setpoints[LensIx.slot l], true, true⟩ := by
  obtain ⟨run, present, on⟩ := driven
  unfold Part.driveSlot
  dsimp only
  rw [if_neg (by rw [run, present]; simp), dif_neg (LensIx.slot_not_motion l), lensOf_lens]
  exact if_neg (on l rfl)

theorem Part.driveSlot_setpoint {p : Part} {setpoints : Vector Int 12} {c : Slot} (driven : p.Driven c) :
    (p.driveSlot setpoints c).setpoint = setpoints[c] := by
  rcases Slot.motion_or_lens c with ⟨a, rfl⟩ | ⟨l, rfl⟩
  · rw [Part.driveSlot_motion driven]
  · rw [Part.driveSlot_lens driven]

theorem Part.formLenses_mode (m : Part) (l : LensIx) : m.formLenses.chans[l].mode = m.lens.chans[l].mode := by
  rw [Part.formLenses_get]
  exact m.lensRequest_mode l

/-- R10: the part that emits the frame drives what the served one does. -/
theorem Part.Begun.driven_iff (begun : s.Begun m) (c : Slot) : m.cycled.settleOutstanding.Driven c ↔ s.Driven c := by
  obtain ⟨lens, axes, mode, -, -⟩ := m.cycled.settled_fixed
  have modes (l : LensIx) : m.cycled.settleOutstanding.lens.chans[l].mode = s.lens.chans[l].mode := by
    rw [lens, m.stepped_fixed.lens, ← begun.lens l]
    exact m.formLenses_mode l
  have axes : m.cycled.settleOutstanding.shaper.axes = s.shaper.axes := by
    rw [axes, m.stepped_fixed.axes]
    exact begun.axes
  have mode : m.cycled.settleOutstanding.lane.mode = s.lane.mode := by
    rw [mode, m.stepped_fixed.mode]
    exact begun.mode
  simp only [Part.Driven, modes, axes, mode]

theorem Part.Begun.actual (begun : s.Begun m) (c : Slot) :
    m.cycled.settleOutstanding.gateway.feedback[c].actual = s.gateway.feedback[c].actual := by
  rw [Part.settleOutstanding_actual, m.cycled_gateway, begun.feedback]

theorem Part.setpoints_get (s : Part) (c : Slot) : s.setpoints[c] =
    if s.shaper.chans[c].source = .track then s.gateway.feedback[c].actual else countOf s.shaper.chans[c].p := by
  simp [Part.setpoints]

theorem Part.PlayLaw.open (law : s.PlayLaw) (off : s.seq.state = .safeOff) : s.player.state ≠ .closing := by
  intro closing
  obtain ⟨idle, -⟩ := law (off ▸ StopState.noConfusion)
  rw [closing] at idle
  exact nomatch idle

/-- R10, R11: the slots of the frame emitted. -/
theorem Part.Begun.emitsSlots (begun : s.Begun m) : s.EmitsSlots m.stepAndEmit m.emitted where
  idle := fun c idle => by
    rw [m.emitted_slot, Part.driveSlot_idle (mt (begun.driven_iff c).mp idle), begun.actual]
  lens := fun l driven => by
    rw [m.emitted_slot, Part.driveSlot_lens ((begun.driven_iff _).mpr driven)]
    exact ⟨rfl, rfl⟩
  motion := fun a driven => by
    have driven' := (begun.driven_iff _).mpr driven
    have present : m.cycled.settleOutstanding.shaper.axes[Axis.slot a].present = true := driven'.2.1
    have axes : m.cycled.settleOutstanding.shaper.axes = s.shaper.axes := by
      rw [m.cycled.settled_fixed.2.1, m.stepped_fixed.axes]
      exact begun.axes
    rw [m.emitted_slot, Part.driveSlot_motion driven', Part.torqueFlag, Part.releaseFlag, present, m.stepAndEmit_beside.1,
      axes, Bool.true_and, Bool.true_and, StopState.torque_eq]
    exact ⟨rfl, rfl⟩
  shaped := fun law c driven off still => by
    have setpoint := Part.driveSlot_setpoint (setpoints := m.stepped.setpoints) ((begun.driven_iff c).mpr driven)
    rw [m.emitted_slot, setpoint, Part.setpoints_get, (m.stepAndEmit_shaped c).1]
    refine if_neg fun track => ?_
    rw [m.stepped_source] at track
    rcases begun.course.toTrack c track with was | safeOff
    · exact off was
    · have course := (m.cycled_course ((begun.play law).open safeOff)).trans m.settled_course
      exact still (course.onTrack safeOff c (by rw [m.stepped_source]; exact track))
  tracked := fun law c driven safeOff track => by
    have setpoint := Part.driveSlot_setpoint (setpoints := m.stepped.setpoints) ((begun.driven_iff c).mpr driven)
    have stays : m.stepped.shaper.chans[c].source = .track := by
      rw [m.stepped_source]
      exact begun.course.onTrack safeOff c track
    rw [m.emitted_slot, setpoint, Part.setpoints_get, if_pos stays, ← begun.feedback]
    rfl

end

end Sys2Proof.Machine
end

section
set_option Elab.async false
/-! SETTLED. Cycle frames without requests and fill cycles (O8, O9), and the flags of their drive frames (O10). -/

namespace Sys2Proof.Machine

/-- The time base is not what a cycle serves. -/
theorem Part.Begun.before {s m : Part} {time : Nat} (begun : (s.advanceTo time).Begun m) : s.Begun m :=
  { begun with
    course := .trans (t := s.advanceTo time) (.of_same rfl rfl rfl) begun.course
    play := fun law => begun.play law }

theorem StopState.after_ramp_left (st : StopState) (brakes : Bool) : st.after .ramp brakes ≠ .running := by
  cases st <;> cases brakes <;> decide

/-! ### Cycle frames -/

section
variable (p : Part) (f : CycleFrame)

/-- R4: the part at which the requests of a served frame are formed. -/
def Part.frameBegun : Part :=
  (Part.startLenses { p with gateway := p.gateway.serveFrame f p.now }).sequencerServing.recorderServing.playerServing

theorem Part.serveFrame_eq : p.serveFrame f = (p.frameBegun f).stepAndEmit := rfl

theorem Part.frameBegun_begun : p.Begun (p.frameBegun f) :=
  (Part.Begun.first (s := p) (now := p.now) (g := p.gateway.serveFrame f p.now) rfl rfl rfl rfl).sequencer.servings

theorem Part.frameBegun_gateway : (p.frameBegun f).gateway = p.gateway.serveFrame f p.now :=
  (Part.playerServing_work _).gateway.trans ((Part.recorderServing_work _).gateway.trans
    (Part.sequencerServing_work _).gateway)

theorem Part.frameBegun_now : (p.frameBegun f).now = p.now :=
  (Part.playerServing_work _).now.trans ((Part.recorderServing_work _).now.trans (Part.sequencerServing_work _).now)

end

/-- R24: a frame without requests is its cycle's work. -/
theorem exec_cycleFrame {time : Nat} {frame : List Byte} {f : CycleFrame} {s : State}
    (read : CycleFrame.ofBytes frame = some f) (accepted : s.part.gateway.accepts f.cycle) (none : f.lane = []) :
    exec (.cycleFrame time frame) s = .next { s with part := (s.part.advanceTo time).serveFrame f } := by
  have served := frameArrived_served (p := s.part.advanceTo time) read accepted
  have empty : laneRecords f.lane = [] := by rw [none]; rfl
  rw [empty] at served
  exact congrArg (fun p => (.next { s with part := p } : Host.Outcome State Fault Refusal)) served

/-- Settles O8, by the stages of the cycle: what begins it, its step, and the drive frame. -/
theorem servedFrame : Obligations.ServedFrame := by
  unfold Obligations.ServedFrame
  intro time frame f s read accepted none
  have begun : s.part.Begun _ := ((s.part.advanceTo time).frameBegun_begun f).before
  obtain ⟨m, same⟩ : ∃ m, m = (s.part.advanceTo time).frameBegun f := ⟨_, rfl⟩
  have gateway : m.stepAndEmit.gateway = _ := m.stepAndEmit_gateway
  rw [same, Part.frameBegun_gateway, ← same] at gateway
  have cycle : m.gateway.cycle = f.cycle := by rw [same, Part.frameBegun_gateway]; rfl
  rw [← same] at begun
  refine ⟨m.stepAndEmit, m.emitted, m.requests, ?_, ?_, ?_, ?_, ?_, ?_, ?_, ?_, ?_, ?_, ?_, ?_, ?_, ?_, ?_, ?_,
    begun.missSettled, begun.emitsSlots, ?_⟩
  · rw [exec_cycleFrame read accepted none, same]
    rfl
  · rw [same]
    exact Part.stepAndEmit_cycleSteps _
  · rw [m.stepAndEmit_now, same]
    exact Part.frameBegun_now _ _
  iterate 9 (rw [gateway]; rfl)
  · intro c
    rw [gateway]
    simp only [Gateway.serveFrame, Fin.getElem_fin, Vector.getElem_ofFn]
    rfl
  · rw [m.stepAndEmit_portB, begun.portB]
  · rw [m.emitted_cycle, cycle]
  · rw [gateway]
    show some m.emittedRecord.cycle = _
    rw [← cycle, ← m.emitted_cycle]
    rfl
  · rw [m.stepAndEmit_mode, begun.mode]

/-! ### Fill cycles -/

section
variable (p : Part)

/-- R6: the part of a fill cycle before the recorder's clock. -/
def Part.fillLinked : Part :=
  (Part.startLenses { p with gateway := p.gateway.serveFill p.now }).sequencerServing.checkLink

/-- R6: the part at which the requests of a fill cycle are formed. -/
def Part.fillBegun : Part := p.fillLinked.recorderServing.playerServing

theorem Part.serveFill_eq : p.serveFill = p.fillBegun.stepAndEmit := rfl

theorem Part.fillLinked_begun : p.Begun p.fillLinked :=
  (Part.Begun.first (s := p) (now := p.now) (g := p.gateway.serveFill p.now) rfl rfl rfl rfl).sequencer.work
    (Part.checkLink_work _) (Part.checkLink_course _)

theorem Part.fillBegun_begun : p.Begun p.fillBegun := p.fillLinked_begun.servings

theorem Part.fillCounted_gateway : (Part.sequencerServing
    (Part.startLenses { p with gateway := p.gateway.serveFill p.now })).gateway = p.gateway.serveFill p.now :=
  (Part.sequencerServing_work _).gateway

theorem Part.fillBegun_gateway : p.fillBegun.gateway = p.gateway.serveFill p.now :=
  (Part.playerServing_work _).gateway.trans ((Part.recorderServing_work _).gateway.trans
    ((Part.checkLink_work _).gateway.trans p.fillCounted_gateway))

theorem Part.fillLinked_eq : p.fillLinked = if p.gateway.missLimit ≤ bump255 p.gateway.controllerMiss then
    (Part.sequencerServing { p with gateway := p.gateway.serveFill p.now, lens := p.lens.begun }).post .link .ramp 0
    else Part.sequencerServing { p with gateway := p.gateway.serveFill p.now, lens := p.lens.begun } := by
  unfold Part.fillLinked Part.checkLink
  rw [p.fillCounted_gateway]
  rfl

/-- R8: at the miss limit Link is posted. -/
theorem Part.fillLinked_link (limit : p.gateway.missLimit ≤ bump255 p.gateway.controllerMiss) :
    p.fillLinked.seq.causes.getLsbD 7 = true ∧ p.fillLinked.seq.state ≠ .running := by
  rw [p.fillLinked_eq, if_pos limit, Part.post_causes, Part.post_state]
  refine ⟨by rw [show (7 == CauseKind.link.bit) = true from rfl, Bool.or_true], fun running => ?_⟩
  exact StopState.after_ramp_left _ _ running

/-- R6: the miss count of a fill cycle. -/
theorem Part.fillBegun_link (limit : p.gateway.missLimit ≤ bump255 p.gateway.controllerMiss) :
    p.fillBegun.stepAndEmit.seq.causes.getLsbD 7 = true ∧ p.fillBegun.stepAndEmit.seq.state ≠ .running := by
  obtain ⟨link, left⟩ := p.fillLinked_link limit
  have course : p.fillLinked.Course p.fillBegun :=
    (Part.recorderServing_course _).trans (Part.playerServing_course _)
  have causes : (p.fillBegun.stepped.checkDivergence p.fillBegun.requests).seq.causes.getLsbD 7 = true :=
    (Part.checkDivergence_steady _ _).causes 7 (course.causes 7 link)
  refine ⟨?_, Part.stepAndEmit_left _ ((Part.checkDivergence_steady _ _).left (course.left left))⟩
  refine (Part.settled_course _).causes 7 ?_
  rw [Part.cycled_bit _ (by decide) (by decide)]
  exact causes

end

theorem exec_fillCycle {expiry : Nat} {s : State} (timer : s.part.gateway.timer = some expiry) :
    exec .fillCycle s = .next { s with part := (s.part.advanceTo expiry).serveFill } := by
  have expired : s.part.timerExpired = (s.part.advanceTo expiry).serveFill := by
    rw [Part.timerExpired, timer]
  exact congrArg (fun p => (.next { s with part := p } : Host.Outcome State Fault Refusal)) expired

/-- Settles O9, as O8, with Link posted before the recorder's clock. -/
theorem fillCycle : Obligations.FillCycle := by
  unfold Obligations.FillCycle
  intro expiry s timer
  have begun : s.part.Begun _ := (s.part.advanceTo expiry).fillBegun_begun.before
  have link := (s.part.advanceTo expiry).fillBegun_link
  obtain ⟨m, same⟩ : ∃ m, m = (s.part.advanceTo expiry).fillBegun := ⟨_, rfl⟩
  have gateway : m.stepAndEmit.gateway = _ := m.stepAndEmit_gateway
  rw [same, Part.fillBegun_gateway, ← same] at gateway
  have cycle : m.gateway.cycle = s.part.gateway.cycle + 1 := by rw [same, Part.fillBegun_gateway]; rfl
  rw [← same] at begun link
  refine ⟨m.stepAndEmit, m.emitted, m.requests, ?_, ?_, ?_, ?_, ?_, ?_, ?_, ?_, ?_, ?_, begun.missSettled,
    begun.emitsSlots, ?_⟩
  · rw [exec_fillCycle timer, same]
    rfl
  · have cycle : (s.part.advanceTo expiry).fillBegun.CycleSteps m.stepAndEmit m.requests := by
      rw [← same]
      exact m.stepAndEmit_cycleSteps
    rw [Part.fillBegun, Part.fillLinked_eq] at cycle
    exact cycle
  iterate 4 (rw [gateway]; rfl)
  · intro c
    rw [gateway]
    simp only [Gateway.serveFill, Fin.getElem_fin, Vector.getElem_ofFn]
    rfl
  · rw [m.stepAndEmit_portB, begun.portB]
  · rw [m.emitted_cycle, cycle]
  · rw [gateway]
    show some m.emittedRecord.cycle = _
    rw [← cycle, ← m.emitted_cycle]
    rfl
  · exact link

/-! ### The flags -/

/-- R11: in Setup no slot is driven. -/
theorem Part.not_driven_of_setup {s : Part} (setup : s.lane.mode = .setup) (c : Slot) : ¬ s.Driven c := fun driven => by
  have run := driven.1
  rw [setup] at run
  exact nomatch run

/-- R11, R83: torque enable on a motion slot of the frame emitted. -/
theorem Part.Begun.torque {s m : Part} (begun : s.Begun m) {a : Axis}
    (torque : m.emitted.slots[Axis.slot a].torque = true) :
    m.stepAndEmit.seq.state ≠ .safeOff ∧ m.stepAndEmit.shaper.axes[Axis.slot a].present = true := by
  have slots := begun.emitsSlots
  by_cases driven : s.Driven (Axis.slot a)
  · rw [(slots.motion a driven).1] at torque
    refine ⟨by simpa using torque, ?_⟩
    rw [m.stepAndEmit_axes, begun.axes]
    exact driven.2.1
  · rw [slots.idle _ driven] at torque
    exact nomatch torque

/-- R3: a late frame without requests sends nothing out of port B. -/
theorem Part.lateFrame_portB {p : Part} {f : CycleFrame} (none : f.lane = []) : (p.lateFrame f).portB = p.portB := by
  have empty : laneRecords f.lane = [] := by rw [none]; rfl
  rw [Part.lateFrame, empty]
  rfl

theorem append_singleton_inj {α : Type} {l : List α} {a b : α} (same : l ++ [a] = l ++ [b]) : a = b :=
  List.singleton_inj.mp (List.append_cancel_left same)

/-- Settles O10, by O8's slots and by the chain law that every cycle keeps. -/
theorem driveFrameFlags : Obligations.DriveFrameFlags := by
  unfold Obligations.DriveFrameFlags
  refine ⟨fun time frame f s read accepted none setup => ?_, fun s t c d cycle law next port a torque => ?_⟩
  · obtain ⟨t, d, _, ran, -, -, -, -, -, -, -, -, -, -, -, -, portB, -, -, -, slots, -⟩ :=
      servedFrame time frame f s read accepted none
    exact ⟨t, d, ran, portB, fun c => slots.idle c (Part.not_driven_of_setup setup c)⟩
  · have closed {p m : Part} (law : p.ChainLaw) (keeps : Keeps p m.stepAndEmit) (begun : p.Begun m)
        (same : t.part = m.stepAndEmit) (ports : p.portB = s.part.portB) :
        t.part.seq.chainClosed = true ∧ t.part.lane.mode = .run ∧
        t.part.shaper.axes[Axis.slot a].present = true := by
      have law := keeps.chain law
      rw [same, m.stepAndEmit_portB, begun.portB, ports] at port
      rw [← append_singleton_inj port] at torque
      obtain ⟨on, present⟩ := begun.torque torque
      rw [same]
      exact ⟨law.closed_iff.mpr on, law.in_run on, present⟩
    have silent (same : t.part.portB = s.part.portB) : False := by
      rw [same] at port
      exact absurd (List.self_eq_append_right.mp port) (List.cons_ne_nil _ _)
    rcases cycle with rfl | ⟨time, frame, f, rfl, read, none⟩
    · cases timer : s.part.gateway.timer with
      | none =>
        have expired : t = { s with part := s.part.timerExpired } := (Host.Outcome.next.inj next).symm
        rw [Part.timerExpired, timer] at expired
        exact absurd (congrArg (fun t : State => t.part.portB) expired) fun same => silent same
      | some expiry =>
        rw [exec_fillCycle timer] at next
        have same := congrArg State.part (Host.Outcome.next.inj next).symm
        exact closed (p := s.part.advanceTo expiry) ⟨law.1, law.2, law.3⟩ (Part.serveFill_keeps _) (Part.fillBegun_begun _) same rfl
    · by_cases accepted : s.part.gateway.accepts f.cycle
      · rw [exec_cycleFrame read accepted none] at next
        have same := congrArg State.part (Host.Outcome.next.inj next).symm
        exact closed (p := s.part.advanceTo time) ⟨law.1, law.2, law.3⟩ (Part.serveFrame_keeps _ _) (Part.frameBegun_begun _ _) same rfl
      · have same := congrArg State.part (Host.Outcome.next.inj next).symm
        have late := frameArrived_late (p := s.part.advanceTo time) read (Bool.not_eq_true _ ▸ accepted)
        refine (silent ?_).elim
        rw [same]
        exact (congrArg Part.portB late).trans (Part.lateFrame_portB none)

end Sys2Proof.Machine
end

section
/-! SETTLED. The zone monitor's work of a served cycle, and the ageing of a fill cycle (O28). -/

namespace Sys2Proof.Machine

/-! ### The causes of the zone tests -/

/-- R73: an entry that a tip hits and that is KeepOut or KeepIn. -/
def ZoneMonitor.barring (z : ZoneMonitor) (i : ZoneIx) : Bool :=
  (z.currentHits.getLsbD i.val || z.stopHits.getLsbD i.val) && decide (z.zones[i].kind ≠ .slow)

/-- R73: the cause an entry posts. -/
def ZoneMonitor.causeOf (z : ZoneMonitor) (i : ZoneIx) : CauseKind × Category × Nat :=
  (if z.zones[i].kind = .keepOut then .zone else .boundary, z.zones[i].response, i.val)

section
variable {z : ZoneMonitor}

theorem filterMap_ite {α β : Type} (keep : α → Bool) (f : α → β) (l : List α) :
    (l.filterMap fun a => if keep a then some (f a) else none) = (l.filter keep).map f := by
  induction l with
  | nil => rfl
  | cons a l ih => cases keeps : keep a <;> simp [keeps, ih]

theorem ZoneMonitor.causes_of_recovery (recovery : z.recovery = true) : z.causes = [] := if_pos recovery

theorem ZoneMonitor.causes_eq (clear : z.recovery = false) :
    z.causes = ((List.finRange 16).filter z.barring).map z.causeOf := by
  rw [← filterMap_ite, ZoneMonitor.causes, clear, if_neg Bool.false_ne_true]
  congr 1
  funext i
  unfold ZoneMonitor.barring ZoneMonitor.causeOf
  cases z.currentHits.getLsbD i.val || z.stopHits.getLsbD i.val
  · rfl
  · cases z.zones[i].kind <;> rfl

theorem ZoneMonitor.mem_causes (clear : z.recovery = false) (c : CauseKind × Category × Nat) :
    c ∈ z.causes ↔ ∃ i, z.barring i = true ∧ z.causeOf i = c := by
  simp [ZoneMonitor.causes_eq clear]

/-- R73: Zone is posted exactly by a KeepOut entry hit. -/
theorem ZoneMonitor.causes_zone (clear : z.recovery = false) : (z.causes.any fun c => 2 == c.1.bit) = true ↔
    ∃ i, z.barring i = true ∧ z.zones[i].kind = .keepOut := by
  simp only [List.any_eq_true, ZoneMonitor.mem_causes clear, beq_iff_eq]
  constructor
  · rintro ⟨_, ⟨i, bars, rfl⟩, bit⟩
    refine ⟨i, bars, ?_⟩
    unfold ZoneMonitor.causeOf at bit
    split at bit
    · assumption
    · exact nomatch bit
  · rintro ⟨i, bars, out⟩
    exact ⟨_, ⟨i, bars, rfl⟩, by rw [ZoneMonitor.causeOf, if_pos out]; rfl⟩

/-- R73: Boundary is posted exactly by a KeepIn entry hit. -/
theorem ZoneMonitor.causes_boundary (clear : z.recovery = false) : (z.causes.any fun c => 3 == c.1.bit) = true ↔
    ∃ i, z.barring i = true ∧ z.zones[i].kind = .keepIn := by
  simp only [List.any_eq_true, ZoneMonitor.mem_causes clear, beq_iff_eq]
  constructor
  · rintro ⟨_, ⟨i, bars, rfl⟩, bit⟩
    refine ⟨i, bars, ?_⟩
    unfold ZoneMonitor.causeOf at bit
    unfold ZoneMonitor.barring at bars
    cases kind : z.zones[i].kind
    case keepIn => rfl
    case keepOut => rw [kind] at bit; exact nomatch bit
    case slow => rw [kind] at bars; simp at bars
  · rintro ⟨i, bars, inside⟩
    refine ⟨_, ⟨i, bars, rfl⟩, ?_⟩
    rw [ZoneMonitor.causeOf, if_neg (by rw [inside]; exact ZoneKind.noConfusion)]
    rfl

/-- R73: the lowest entry hit posts first. -/
theorem ZoneMonitor.causes_head (clear : z.recovery = false) {i : ZoneIx} (bars : z.barring i = true)
    (lowest : ∀ j : ZoneIx, j.val < i.val → z.barring j = false) : z.causes.head? = some (z.causeOf i) := by
  rw [ZoneMonitor.causes_eq clear, List.head?_map, List.head?_filter]
  have found : (List.finRange 16).find? z.barring = some i := by
    rw [List.find?_eq_some_iff_getElem]
    refine ⟨bars, i.val, by rw [List.length_finRange]; exact i.isLt, by simp, fun j below => ?_⟩
    rw [List.getElem_finRange, lowest _ below]
    rfl
  rw [found]
  rfl

theorem ZoneMonitor.barred_or (z : ZoneMonitor) : (z.barred z.currentHits || z.barred z.stopHits) = true ↔
    ∃ i, z.barring i = true := by
  have bars (k : ZoneKind) : k.bars = decide (k ≠ .slow) := by cases k <;> rfl
  simp only [ZoneMonitor.barred, ZoneMonitor.barring, Bool.or_eq_true, List.any_eq_true, List.mem_finRange, true_and,
    Bool.and_eq_true, bars, or_and_right, exists_or]

end

/-! ### Several causes -/

section
variable {s : Part}

/-- R78: a cause never sets the recovery flag. -/
theorem Part.post_recovery {kind : CauseKind} {category : Category} {detail : Nat} (clear : s.zone.recovery = false) :
    (s.post kind category detail).zone.recovery = false := by
  have transition (p : Part) (clear : p.zone.recovery = false) : (p.transition category).zone.recovery = false := by
    have left : p.leaveRunning.zone.recovery = false := by rw [p.leaveRunning_work.zone]; exact clear
    unfold Part.transition
    split
    case h_1 | h_8 => exact left
    case h_11 =>
      rw [Part.enterBraking_eq]
      split
      · exact clear
      · rfl
    case h_13 | h_15 | h_16 | h_17 | h_18 | h_19 | h_20 => rfl
    all_goals exact clear
  exact transition _ clear

/-- R81: the stop state after several causes. -/
theorem Part.postAll_state (cs : List (CauseKind × Category × Nat)) (s : Part) : (s.postAll cs).seq.state =
    cs.foldl (fun st c => st.after c.2.1 s.hasBrake) s.seq.state := by
  induction cs generalizing s with
  | nil => rfl
  | cons c cs ih =>
    have brakes : (s.post c.1 c.2.1 c.2.2).hasBrake = s.hasBrake := by
      unfold Part.hasBrake Shaper.motion
      rw [(s.post_work c.1 c.2.1 c.2.2).axes]
    rw [Part.postAll_cons, ih, Part.post_state, brakes]
    rfl

theorem Part.postAll_recovery (cs : List (CauseKind × Category × Nat)) {s : Part} (clear : s.zone.recovery = false) :
    (s.postAll cs).zone.recovery = false := by
  induction cs generalizing s with
  | nil => exact clear
  | cons c cs ih => exact ih (Part.post_recovery clear)

/-! ### The zone monitor's work -/

/-- R70: the part whose zone tests are made. -/
def Part.remarked (s : Part) : Part := { s with zone := s.zone.update s.shaper }

theorem Part.zoneTests_zone (s : Part) : s.zoneTests.zone = s.zone := by
  unfold Part.zoneTests
  split
  · have kept := (Part.postAll_work s.zone.causes s).zoneBut
    cases recovery : s.zone.recovery with
    | true => rw [ZoneMonitor.causes_of_recovery recovery]; rfl
    | false =>
      rw [Part.postAll_recovery _ recovery, ← recovery] at kept
      exact kept
  · rfl

theorem Part.zoneWork_zone (s : Part) : s.zoneWork.zone = (s.zone.update s.shaper).checkRecovery := by
  show s.remarked.zoneTests.zone.checkRecovery = _
  rw [Part.zoneTests_zone]
  rfl

theorem Part.zoneWork_masksAgree (s : Part) : s.zoneWork.MasksAgree := by
  have sigma : s.zoneWork.shaper.sigma = s.zoneWork.zone.speedScale := rfl
  refine ⟨?_, ?_, by rw [sigma]; exact ZoneMonitor.speedScale_worksOut _⟩ <;> rw [Part.zoneWork_zone]
  · exact ZoneMonitor.hits_iff _ _
  · exact ZoneMonitor.hits_iff _ _

/-! ### Ageing -/

theorem StopWork.zones {s t : Part} (work : StopWork s t) : t.zone.zones = s.zone.zones := by
  rw [work.zoneBut]

theorem Part.zoneWork_zones (s : Part) (i : ZoneIx) : s.zoneWork.zone.zones[i] = s.zone.zones[i].aged := by
  rw [Part.zoneWork_zone, ← ZoneEntry.grow_eq_aged]
  simp [ZoneMonitor.checkRecovery, ZoneMonitor.update, ZoneMonitor.remask, ZoneMonitor.ageZones]

theorem Part.settleOutstanding_zones (s : Part) : s.settleOutstanding.zone.zones = s.zone.zones := by
  cases outstanding : s.gateway.outstanding with
  | none => rw [Part.settleOutstanding_none outstanding]
  | some o =>
    rw [Part.settleOutstanding_some outstanding]
    split
    · exact (StopWork.zones ((s.told o).post_work .driveLink .hard 0)).trans rfl
    · rfl

/-- R68: the zone table of a served cycle. -/
theorem Part.stepAndEmit_zones (m : Part) (i : ZoneIx) : m.stepAndEmit.zone.zones[i] = m.zone.zones[i].aged := by
  have before : (m.stepped.checkDivergence m.requests).zone.zones = m.zone.zones :=
    (StopWork.zones (Part.checkDivergence_work m.stepped _)).trans rfl
  have after : m.stepAndEmit.zone.zones = m.zoned.zone.zones := by
    rw [m.stepAndEmit_eq]
    refine (Part.settleOutstanding_zones _).trans ?_
    exact (StopWork.zones (Part.arrivalReport_work _ _).toStopWork).trans
      ((StopWork.zones (Part.checkRampEnd_work _ _)).trans (StopWork.zones (Part.sampleInstant_work _).toStopWork))
  rw [after, ← before]
  exact Part.zoneWork_zones _ i

theorem Part.fillBegun_zones (p : Part) : p.fillBegun.zone.zones = p.zone.zones :=
  (StopWork.zones (Part.playerServing_work _)).trans ((StopWork.zones (Part.recorderServing_work _).toStopWork).trans
    ((StopWork.zones (Part.checkLink_work _)).trans ((StopWork.zones (Part.sequencerServing_work _)).trans rfl)))

theorem Part.fillBegun_lens (p : Part) : p.fillBegun.lens = p.lens.begun :=
  (Part.playerServing_work _).lens.trans ((Part.recorderServing_work _).lens.trans
    ((Part.checkLink_work _).lens.trans (Part.sequencerServing_work _).lens))

/-! ### What the zone tests post -/

/-- R70 stage 4: the tests are made. -/
def Part.ZonesTested (p : Part) : Prop := p.lane.mode = .run ∧ p.seq.state ≠ .safeOff ∧ p.zone.recovery = false

theorem Part.remarked_recovery (p : Part) : p.remarked.zone.recovery = p.zone.recovery := rfl

theorem Part.ZonesTested.clear {p : Part} (tested : p.ZonesTested) : p.remarked.zone.recovery = false :=
  p.remarked_recovery.trans tested.2.2

theorem Part.zoneWork_tested {p : Part} (tested : p.ZonesTested) :
    p.zoneWork.seq = (p.remarked.postAll p.remarked.zone.causes).seq := by
  obtain ⟨run, on, -⟩ := tested
  have made : p.remarked.zoneTests = p.remarked.postAll p.remarked.zone.causes := if_pos ⟨run, on⟩
  show p.remarked.zoneTests.seq = _
  rw [made]

theorem Part.zoneWork_untested {p : Part} (untested : ¬ p.ZonesTested) : p.zoneWork.seq = p.seq := by
  show p.remarked.zoneTests.seq = p.seq
  unfold Part.zoneTests
  split
  · next on =>
    have recovery : p.remarked.zone.recovery = true := by
      refine Classical.byContradiction fun clear => ?_
      exact untested ⟨on.1, on.2, eq_false_of_ne_true clear⟩
    rw [ZoneMonitor.causes_of_recovery recovery]
    rfl
  · rfl

/-- R71 to R73: of the masks and the table the work leaves what its tests read. -/
theorem Part.zoneWork_barring (p : Part) (i : ZoneIx) :
    p.remarked.zone.barring i = p.zoneWork.zone.barring i := by
  rw [Part.zoneWork_zone]
  rfl

theorem Part.zoneWork_entry (p : Part) (i : ZoneIx) : p.remarked.zone.zones[i] = p.zoneWork.zone.zones[i] := by
  rw [Part.zoneWork_zone]
  rfl

/-- R78: the recovery flag after the work. -/
theorem Part.zoneWork_recovery (p : Part) : p.zoneWork.zone.recovery = true ↔
    p.zone.recovery = true ∧ ∃ i, p.zoneWork.zone.barring i = true := by
  have barred := p.remarked.zone.barred_or
  simp only [Part.zoneWork_barring] at barred
  rw [← barred]
  have recovery : p.zoneWork.zone.recovery = (p.zone.recovery &&
      (p.remarked.zone.barred p.remarked.zone.currentHits || p.remarked.zone.barred p.remarked.zone.stopHits)) := by
    rw [Part.zoneWork_zone]
    rfl
  rw [recovery, Bool.and_eq_true]

theorem Part.zoneWork_causes {p : Part} (tested : p.ZonesTested) (n : Nat) :
    p.zoneWork.seq.causes.getLsbD n = (p.seq.causes.getLsbD n || p.remarked.zone.causes.any fun c => n == c.1.bit) := by
  rw [Part.zoneWork_tested tested, Part.postAll_causes]
  rfl

theorem Part.zoneWork_first {p : Part} (tested : p.ZonesTested) {i : ZoneIx}
    (bars : p.zoneWork.zone.barring i = true)
    (lowest : ∀ j : ZoneIx, j.val < i.val → p.zoneWork.zone.barring j = false) :
    p.zoneWork.seq.firstCause = some (p.seq.firstCause.getD
      ⟨if p.zoneWork.zone.zones[i].kind = .keepOut then .zone else .boundary, i.val⟩) := by
  simp only [← Part.zoneWork_barring] at bars lowest
  rw [Part.zoneWork_tested tested, Part.postAll_firstCause, ZoneMonitor.causes_head tested.clear bars lowest,
    Option.map_some, ← p.zoneWork_entry]
  have same : p.remarked.seq.firstCause = p.seq.firstCause := rfl
  rw [same, ZoneMonitor.causeOf]
  cases p.seq.firstCause with
  | none => rw [Option.none_or, Option.getD_none]
  | some cause => rw [Option.some_or, Option.getD_some]

theorem Part.zoneWork_state {p : Part} (tested : p.ZonesTested) : p.zoneWork.seq.state =
    ((List.finRange 16).filter p.zoneWork.zone.barring).foldl
      (fun st i => st.after p.zoneWork.zone.zones[i].response p.hasBrake) p.seq.state := by
  have barring : p.remarked.zone.barring = p.zoneWork.zone.barring := funext p.zoneWork_barring
  rw [Part.zoneWork_tested tested, Part.postAll_state, ZoneMonitor.causes_eq tested.clear, List.foldl_map, barring]
  simp only [ZoneMonitor.causeOf, Part.zoneWork_entry]
  rfl

/-- Settles O28: a fill cycle ages by its zone monitor's work, and that work by its tests. -/
theorem liveDataAges : Obligations.LiveDataAges := by
  unfold Obligations.LiveDataAges
  refine ⟨fun expiry s timer => ⟨_, exec_fillCycle timer, fun i => ?_, ?_⟩, fun p => ?_⟩
  · rw [Part.serveFill_eq, Part.stepAndEmit_zones, Part.fillBegun_zones]
    rfl
  · rw [Part.serveFill_eq, Part.stepAndEmit_lens]
    exact congrArg (·.target) (Part.fillBegun_lens _)
  · refine ⟨by rw [Part.zoneWork_zone]; rfl, by rw [Part.zoneWork_zone]; rfl, p.zoneWork_zones, p.zoneWork_masksAgree,
      p.zoneWork_recovery, Part.zoneWork_untested, fun (tested : p.ZonesTested) => ⟨?_, ?_, fun i bars lowest =>
        Part.zoneWork_first tested bars lowest, Part.zoneWork_state tested⟩⟩
    · have zone := ZoneMonitor.causes_zone (z := p.remarked.zone) tested.clear
      simp only [Part.zoneWork_barring, Part.zoneWork_entry] at zone
      rw [Part.zoneWork_causes tested, Bool.or_eq_true, zone]
      rfl
    · have boundary := ZoneMonitor.causes_boundary (z := p.remarked.zone) tested.clear
      simp only [Part.zoneWork_barring, Part.zoneWork_entry] at boundary
      rw [Part.zoneWork_causes tested, Bool.or_eq_true, boundary]
      rfl

end

end Sys2Proof.Machine
end

section
/-! SETTLED. Statements that a request of another list refutes: what the lists of the player and of the recorder may
hold is not among their conditions. -/

namespace Sys2Proof.Machine

/-! ### A request that holds a ticket in the list of the player -/

/-- The scan is complete, and a Take Read of an Empty slot, with the ticket that comes next, stands in the list of the
player, where the conditions of the statements do not look. -/
def strayTakeRead : Part :=
  { Part.reset with array := { Part.reset.array with
      playerJobs := [.takeRead 0 1 0], scanComplete := true, scan := none } }

/-- The same with slot 0 of the directory as given. -/
def strayReadBeside (d : DirectorySlot) : Part :=
  { strayTakeRead with array := { strayTakeRead.array with directory := strayTakeRead.array.directory.set 0 d } }

theorem Part.room_of_idle {p : Part} (queue : p.lane.queue = []) (tickets : p.array.tickets = []) : p.Room where
  room := by rw [queue]; exact by decide
  fresh := fun e member => by rw [queue] at member; exact absurd member List.not_mem_nil
  jobs := fun n member => by rw [tickets] at member; exact absurd member List.not_mem_nil

/-! ### Take requests -/

def strayErase : Part := strayReadBeside { DirectorySlot.reset with state := .closed }

/-- The controller turns the stray request away, which answers the reply of the Take Erase. -/
theorem strayErase_tail :
    (strayErase.serveTakeErase 0 0).lane.tail = some ⟨0, 0, 0x62#8, some ⟨.wrongState, []⟩⟩ := by decide +kernel

/-- Refutes O53: the reply of an accepted Take Erase may be WrongState. -/
theorem not_takeRequests : ¬ Obligations.TakeRequests := by
  unfold Obligations.TakeRequests
  intro holds
  obtain ⟨-, -, slots⟩ := holds 0 ⟨strayErase, []⟩ (Part.room_of_idle rfl rfl)
  obtain ⟨-, -, -, -, accepted, -⟩ := slots 0
  obtain ⟨t, left, tail, -⟩ := accepted (by decide) (by decide +kernel) (by decide +kernel) (by decide +kernel)
    (by decide +kernel)
  have part : strayErase.serveTakeErase 0 0 = t := congrArg State.part (Host.Outcome.next.inj left)
  rw [← part, strayErase_tail] at tail
  exact absurd tail (by decide)

/-! ### Array Clear -/

def strayClear : Part := strayReadBeside { DirectorySlot.reset with state := .closed, bays := [0] }

theorem strayClear_tail :
    (strayClear.serveArrayClear 0).lane.tail = some ⟨0, 0, 0x65#8, some ⟨.wrongState, []⟩⟩ := by decide +kernel

/-- Refutes O54: the reply of an accepted Array Clear may be WrongState. -/
theorem not_arrayClearResult : ¬ Obligations.ArrayClearResult := by
  unfold Obligations.ArrayClearResult
  intro holds
  obtain ⟨-, -, -, -, accepted⟩ := holds.1 0 ⟨strayClear, []⟩ (Part.room_of_idle rfl rfl)
  obtain ⟨t, left, tail, -⟩ := accepted (by decide) (by decide) (by decide) (by
    rintro (clearing | lane | ⟨j, w, operation, -⟩ | slots)
    · exact absurd clearing (by decide)
    · exact lane rfl
    · exact absurd operation (by intro h; exact nomatch h)
    · exact absurd slots (by decide +kernel))
  have part : strayClear.serveArrayClear 0 = t := congrArg State.part (Host.Outcome.next.inj left)
  rw [← part, strayClear_tail] at tail
  exact absurd tail (by decide)

/-! ### Imports -/

def strayImport : Part :=
  { strayReadBeside { DirectorySlot.reset with state := .importing } with
    array := { (strayReadBeside { DirectorySlot.reset with state := .importing }).array with erased := [0] } }

/-- One Sample of no channel. -/
def straySample : List Byte := [1#8, 0#8, 0#8, 0#8] ++ List.replicate 250 0xFF#8

theorem strayImport_tail : (strayImport.servePageWrite 0 (0 : DirIx).val straySample).lane.tail =
    some ⟨0, 0, 0x69#8, some ⟨.wrongState, []⟩⟩ := by decide +kernel

theorem exec_pageWrite (tag : Byte) (slot : Nat) (page : List Byte) (s : State) :
    exec (.pageWrite tag slot page) s = .next { s with part := s.part.servePageWrite tag slot page } := rfl

/-- Refutes O55: the reply of an accepted Page Write may be answered at once. -/
theorem not_importRequests : ¬ Obligations.ImportRequests := by
  unfold Obligations.ImportRequests
  intro holds
  obtain ⟨-, pages, -⟩ := holds.2.2 0 0 ⟨strayImport, []⟩ (Part.room_of_idle rfl rfl)
  obtain ⟨-, -, -, -, accepted⟩ := pages straySample
  obtain ⟨-, -, writes⟩ := accepted (by decide +kernel) (by decide +kernel) (by decide +kernel)
  have entries : parseEntries (Mask.size strayImport.array.directory[0].info.mask) straySample = some [.sample []] := by
    decide +kernel
  have placed := (writes [.sample []] entries (by
    rintro (none | ended | hold | ⟨-, before, n, after, split, -⟩ | ⟨before, e, after, split⟩)
    · exact absurd none (List.cons_ne_nil _ _)
    · exact absurd ended (by decide +kernel)
    · exact absurd hold (by decide)
    · have member : Entry.hold n ∈ [Entry.sample []] := by rw [split]; simp
      simp at member
    · have member : Entry.finish ∈ [Entry.sample []] := by rw [split]; simp
      simp at member)).2
  obtain ⟨t, left, tail, -⟩ := placed (.inl ⟨by decide +kernel, List.cons_ne_nil _ _⟩) (by decide +kernel)
  rw [exec_pageWrite] at left
  have part := congrArg State.part (Host.Outcome.next.inj left)
  dsimp only at part
  rw [← part, strayImport_tail] at tail
  exact absurd tail (by decide)

/-! ### The recorder -/

theorem strayStop_recordTail :
    (strayStop.serveRecordStop 0).lane.tail = some ⟨0, 0, 0x61#8, some ⟨.wrongState, []⟩⟩ := by decide +kernel

/-- Refutes O57: the reply of a Record Stop may be WrongState while a take is recorded. -/
theorem not_recorderRequests : ¬ Obligations.RecorderRequests := by
  unfold Obligations.RecorderRequests
  intro holds
  obtain ⟨-, -, -, -, stops⟩ := holds.1 0 ⟨strayStop, []⟩ strayStop_room
  obtain ⟨t, left, tail, -⟩ := stops (.inl rfl)
  have part : strayStop.serveRecordStop 0 = t := congrArg State.part (Host.Outcome.next.inj left)
  rw [← part, strayStop_recordTail] at tail
  exact absurd tail (by decide)

/-! ### The player -/

def strayStart : Part :=
  { strayTakeRead with
    seq := { strayTakeRead.seq with state := .running }
    lane := { strayTakeRead.lane with mode := .run } }

theorem strayStart_tail :
    (strayStart.servePlayerStart 0 0).lane.tail = some ⟨0, 0, 0x73#8, some ⟨.wrongState, []⟩⟩ := by decide +kernel

/-- Refutes O59: the reply of an accepted Player Start may be WrongState. -/
theorem not_playerPolls : ¬ Obligations.PlayerPolls := by
  unfold Obligations.PlayerPolls
  intro holds
  obtain ⟨-, -, accepted, -⟩ := (holds.1 0 0 ⟨strayStart, []⟩).1 (Part.room_of_idle rfl rfl)
  obtain ⟨t, left, tail, -⟩ := accepted (by decide) ⟨by decide, by decide⟩ (by decide)
  have part : strayStart.servePlayerStart 0 0 = t := congrArg State.part (Host.Outcome.next.inj left)
  rw [← part, strayStart_tail] at tail
  exact absurd tail (by decide)

/-- The shaper approaches with no channel played, and a read of an Empty slot stands in the list of the recorder. -/
def strayArrival : Part :=
  { Part.reset with
    player := { Part.reset.player with state := .approaching }
    array := { Part.reset.array with
      recorderJobs := [.playerRead 0 7], scanComplete := true, scan := none } }

/-- The read is turned away, and its page joins the prefetch unreadable. -/
theorem strayArrival_prefetch :
    (strayArrival.arrivalReport (Vector.replicate 12 0)).player.prefetch = [⟨7, false, []⟩] := by decide +kernel

/-- Refutes O60: that the reads in the list of the player are sound says nothing of one in the list of the
recorder. -/
theorem not_playerRequests : ¬ Obligations.PlayerRequests := by
  unfold Obligations.PlayerRequests
  intro holds
  obtain ⟨-, waits, -⟩ := holds.2.1 strayArrival (Vector.replicate 12 0)
  obtain ⟨-, -, sound, -⟩ := waits (fun c played => absurd played (by revert c; decide +kernel)) rfl
  have pages : strayArrival.array.directory[strayArrival.player.cues[strayArrival.player.pointer].slot].dataPages = 0 := by
    decide +kernel
  have player := sound ⟨fun j member => absurd member List.not_mem_nil, fun k below =>
    absurd (Nat.lt_of_lt_of_eq below pages) (Nat.not_lt_zero k)⟩
    (fun latched => absurd latched.1.2 (by decide))
  have prefetch := congrArg Player.prefetch player
  rw [strayArrival_prefetch] at prefetch
  exact absurd prefetch (by decide)

end Sys2Proof.Machine
end

section
/-! SETTLED. What a reset leaves (O15): of the array's bytes, those that no operation cut short can have touched. -/

namespace Sys2Proof.Machine

/-! ### Bytes put, on any list of cells -/

theorem lookupCell_putCell_ne {x y : Nat} (other : y ≠ x) (b : Byte) (cs : List Host.Cell) :
    lookupCell (putCell cs x b) y = lookupCell cs y := by
  induction cs with
  | nil =>
    unfold putCell
    split
    · rfl
    · exact if_neg (Ne.symm other)
  | cons c cs ih =>
    unfold putCell
    split
    · split
      · rfl
      · exact if_neg (Ne.symm other)
    split
    · next same =>
      have past : lookupCell (c :: cs) y = lookupCell cs y := if_neg (by rw [← same]; exact Ne.symm other)
      rw [past]
      split
      · rfl
      · exact if_neg (Ne.symm other)
    · show (if c.1 = y then c.2 else lookupCell (putCell cs x b) y) = if c.1 = y then c.2 else lookupCell cs y
      rw [ih]

theorem ArrayMemory.read_put_ne {m : ArrayMemory} {a x : Nat} (other : x ≠ a) (b : Byte) :
    (m.put a b).read x = m.read x := lookupCell_putCell_ne other b m.cells

theorem ArrayMemory.read_putBytes_outside {m : ArrayMemory} {a x : Nat} {bs : List Byte}
    (outside : x < a ∨ a + bs.length ≤ x) : (m.putBytes a bs).read x = m.read x := by
  induction bs generalizing m a with
  | nil => rfl
  | cons b bs ih =>
    rw [List.length_cons] at outside
    exact (ih (by omega)).trans (ArrayMemory.read_put_ne (by omega) b)

theorem ArrayMemory.putBytes_cons (m : ArrayMemory) (a : Nat) (b : Byte) (bs : List Byte) :
    m.putBytes a (b :: bs) = (m.put a b).putBytes (a + 1) bs := rfl

theorem lookupCell_filterMap {f : Host.Cell → Option Host.Cell} {y : Nat}
    (keeps : ∀ c, c.1 = y → f c = some c) (moves : ∀ c d, f c = some d → d.1 = c.1) (cs : List Host.Cell) :
    lookupCell (cs.filterMap f) y = lookupCell cs y := by
  induction cs with
  | nil => rfl
  | cons c cs ih =>
    rw [List.filterMap_cons]
    by_cases here : c.1 = y
    · rw [keeps c here]
      show (if c.1 = y then c.2 else _) = if c.1 = y then c.2 else _
      rw [if_pos here, if_pos here]
    · have past : lookupCell (c :: cs) y = lookupCell cs y := if_neg here
      rw [past, ← ih]
      split
      · rfl
      · next d kept => exact if_neg (by rw [moves c d kept]; exact here)

/-! ### Operations cut short -/

section
variable {m : ArrayMemory} {x : Nat}

/-- R133: a cell of a bay from an address on, once its erase is cut short. -/
def cutCell (a count : Nat) (c : Host.Cell) : Option Host.Cell :=
  if a ≤ c.1 ∧ c.1 < a + 65536 then
    if Config.freeByte (count + c.1) = erasedByte then none
    else some (c.1, Config.freeByte (count + c.1))
  else some c

/-- R133: the bytes of a bay whose erase is cut short, but for its header page. -/
def cutBay (m : ArrayMemory) (a count : Nat) : ArrayMemory := ⟨m.cells.filterMap (cutCell a count)⟩

theorem cutCell_outside {a count : Nat} {c : Host.Cell} (outside : c.1 < a ∨ a + 65536 ≤ c.1) :
    cutCell a count c = some c := if_neg (by omega)

theorem cutCell_moves {a count : Nat} {c d : Host.Cell} (kept : cutCell a count c = some d) :
    d.1 = c.1 ∧ (c.2 ≠ erasedByte → d.2 ≠ erasedByte) := by
  unfold cutCell at kept
  split at kept
  · split at kept
    · exact nomatch kept
    · next programmed => cases kept; exact ⟨rfl, fun _ => programmed⟩
  · cases kept; exact ⟨rfl, id⟩

theorem cutBay_read_outside {a count : Nat} (outside : x < a ∨ a + 65536 ≤ x) : (cutBay m a count).read x = m.read x :=
  lookupCell_filterMap (fun _ here => cutCell_outside (by rw [here]; exact outside))
    (fun _ _ kept => (cutCell_moves kept).1) m.cells

theorem cutBay_above (wf : m.wf = true) (a count : Nat) : cellsAbove 0 (cutBay m a count).cells = true :=
  cellsAbove_filterMap (fun _ _ kept => cutCell_moves kept) ((ArrayMemory.wf_iff m).mp wf).1

/-- R133: the byte in the place of the marker of such a bay. -/
def cutMarker (count : Nat) : Byte := if Config.freeByte count = 0xA5#8 then erasedByte else Config.freeByte count

theorem cutMarker_ne (count : Nat) : cutMarker count ≠ 0xA5#8 := by
  unfold cutMarker
  split
  · decide
  · assumption

theorem cutErase_eq (bay : Bay) (count : Nat) : cutErase m bay count =
    (cutBay m (pageAddress bay 0) count).putBytes (pageAddress bay 0) (cutMarker count :: freshBytes (count + 1) 255) :=
  rfl

theorem pageAddress_zero (bay : Bay) : pageAddress bay 0 = bay.val * 65536 := Nat.add_zero _

theorem read_cutErase_outside {bay : Bay} (count : Nat) (outside : x < bay.val * 65536 ∨ bay.val * 65536 + 65536 ≤ x) :
    (cutErase m bay count).read x = m.read x := by
  rw [cutErase_eq, pageAddress_zero]
  have page : (cutMarker count :: freshBytes (count + 1) 255).length = 256 := by
    rw [List.length_cons, freshBytes_length]
  have past : x < bay.val * 65536 ∨ bay.val * 65536 + 256 ≤ x := outside.imp_right fun past =>
    Nat.le_trans (Nat.add_le_add_left (by decide : 256 ≤ 65536) _) past
  exact (ArrayMemory.read_putBytes_outside (page ▸ past)).trans (cutBay_read_outside outside)

/-- R133: a bay whose erase is cut short has no marker. -/
theorem read_cutErase_marker (wf : m.wf = true) (bay : Bay) (count : Nat) :
    (cutErase m bay count).read (bay.val * 65536) ≠ 0xA5#8 := by
  have above := cutBay_above wf (bay.val * 65536) count
  have marker : (cutErase m bay count).read (bay.val * 65536) = cutMarker count := by
    rw [cutErase_eq, pageAddress_zero, ArrayMemory.putBytes_cons,
      ArrayMemory.read_putBytes_outside (.inl (Nat.lt_succ_self _))]
    exact (lookupCell_putCell above).trans (if_pos rfl)
  rw [marker]
  exact cutMarker_ne count

theorem read_cutHeader_outside {bay : Bay} (h : TakeHeader) (count : Nat)
    (outside : ¬ (bay.val * 65536 + 16 ≤ x ∧ x < bay.val * 65536 + 48)) :
    (cutHeader m bay h count).read x = m.read x := by
  unfold cutHeader
  rw [pageAddress_zero]
  dsimp only
  split
  · exact ArrayMemory.read_putBytes_outside (by rw [freshBytes_length]; omega)
  · exact ArrayMemory.read_putBytes_outside (by
      rw [List.length_append, TakeHeader.body_length, leBytes_length]; omega)

theorem read_cutData_outside {a : Nat} (count : Nat) (outside : ¬ (a ≤ x ∧ x < a + 256)) :
    (cutData m a count).read x = m.read x := by
  unfold cutData
  dsimp only
  split
  · rfl
  · exact ArrayMemory.read_putBytes_outside (by rw [freshBytes_length]; omega)

theorem read_cutByte_ne {a : Nat} (count : Nat) (other : x ≠ a) : (cutByte m a count).read x = m.read x :=
  ArrayMemory.read_put_ne other _

end

/-! ### What a reset finds -/

section
variable {t : TakeArray} {x : Nat}

/-- R142, R155: a byte that the operation in progress does not touch. -/
theorem TakeArray.cutOperation_read (count : Nat) (kept : ¬ t.Cut x) :
    (t.cutOperation count).read x = t.memory.read x := by
  unfold TakeArray.cutOperation
  split
  · rfl
  · next bay erasing =>
    refine read_cutErase_outside count ?_
    refine Classical.byContradiction fun inside => ?_
    exact kept (.inl ⟨bay, .inl erasing, by omega⟩)
  · next j w job =>
    have spared := fun cut => kept (.inr ⟨j, w, job, cut⟩)
    cases j with
    | playerRead slot page => rfl
    | takeRead ticket slot page => rfl
    | recorderHeader bay h => exact read_cutHeader_outside h count spared
    | writeHeader bay h => exact read_cutHeader_outside h count spared
    | recorderData slot page buffer entries =>
      dsimp only
      split
      · next a here => exact read_cutData_outside count fun inside => spared ⟨a, here, inside⟩
      · rfl
    | writeData ticket slot page entries =>
      dsimp only
      split
      · next a here => exact read_cutData_outside count fun inside => spared ⟨a, here, inside⟩
      · rfl
    | lock ticket slot bay => exact read_cutByte_ne count (by rw [pageAddress_zero]; exact spared)
    | retire slot bay => exact read_cutByte_ne count (by rw [pageAddress_zero]; exact spared)
    | clearRetire slot bay => exact read_cutByte_ne count (by rw [pageAddress_zero]; exact spared)

theorem TakeArray.afterCut_eq (t : TakeArray) (count : Nat) : t.afterCut count = match t.suspended with
    | none => t.cutOperation count
    | some bay => cutErase (t.cutOperation count) bay (count + arraySize) := rfl

theorem TakeArray.afterCut_read (count : Nat) (kept : ¬ t.Cut x) : (t.afterCut count).read x = t.memory.read x := by
  rw [TakeArray.afterCut_eq]
  split
  · exact TakeArray.cutOperation_read count kept
  · next bay suspended =>
    refine (read_cutErase_outside _ ?_).trans (TakeArray.cutOperation_read count kept)
    refine Classical.byContradiction fun inside => ?_
    exact kept (.inl ⟨bay, .inr suspended, by omega⟩)

theorem TakeArray.wf_cutOperation (wf : t.memory.wf = true) (count : Nat) : (t.cutOperation count).wf = true :=
  TakeArray.wf_afterCut (t := { t with suspended := none }) wf count

theorem TakeArray.afterCut_marker (wf : t.memory.wf = true) (count : Nat) {bay : Bay}
    (erasing : t.operation = some (.erase bay) ∨ t.suspended = some bay) :
    (t.afterCut count).read (bay.val * 65536) ≠ 0xA5#8 := by
  rw [TakeArray.afterCut_eq]
  have running (erasing : t.operation = some (.erase bay)) : (t.cutOperation count).read (bay.val * 65536) ≠ 0xA5#8 := by
    rw [TakeArray.cutOperation, erasing]
    exact read_cutErase_marker wf bay count
  split
  · next none => exact running (erasing.resolve_right fun some => by rw [none] at some; exact nomatch some)
  · next other suspended =>
    by_cases same : other = bay
    · rw [same]
      exact read_cutErase_marker (TakeArray.wf_cutOperation wf count) bay _
    · rw [read_cutErase_outside _ (by have := mt (fun eq : other.val = bay.val => Fin.ext eq) same; omega)]
      refine running (erasing.resolve_right fun some => ?_)
      rw [suspended] at some
      exact same (Option.some.inj some)

theorem TakeArray.afterCut_idle (operation : t.operation = none) (suspended : t.suspended = none) (count : Nat) :
    t.afterCut count = t.memory := by
  rw [TakeArray.afterCut_eq, suspended]
  show t.cutOperation count = t.memory
  rw [TakeArray.cutOperation, operation]

end

/-- Settles O15: by the definition of the reset, and by what an operation cut short can touch. -/
theorem resetReachesEveryBlock : Obligations.ResetReachesEveryBlock := by
  unfold Obligations.ResetReachesEveryBlock
  refine ⟨fun eStop guard s => ⟨s.part.array.afterCut s.part.freeCount, rfl, fun operation suspended =>
      TakeArray.afterCut_idle operation suspended _, fun x kept => TakeArray.afterCut_read _ kept,
      fun wf bay erasing => TakeArray.afterCut_marker wf _ erasing⟩, fun eStop guard s t reset => ?_,
    fun tag s room => ⟨fun setup => ?_, fun run => ?_⟩⟩
  · have part : t = { s with part := s.part.resetAll eStop guard } := (Host.Outcome.next.inj reset).symm
    rw [part]
    exact ⟨rfl, rfl, rfl, rfl, rfl, rfl, rfl, rfl, rfl, rfl, rfl, rfl⟩
  · have restarts : s.part.serveRestart tag = s.part.restartReset :=
      if_pos ((Part.restarts_iff s.part).mpr ⟨room.room, setup⟩)
    refine ⟨{ s with part := s.part.restartReset }, ?_, rfl, rfl, rfl, rfl⟩
    exact congrArg (fun p => (.next { s with part := p } : Host.Outcome State Fault Refusal)) restarts
  · have refused : ¬ s.part.lane.mode = .setup := by rw [run]; exact PartMode.noConfusion
    exact (refusedRequestsChangeNothing (.restart tag) 0x03#8 _ ⟨.wrongMode, []⟩ s rfl rfl room
      (congrArg Prod.snd (if_neg refused)) rfl).2

end Sys2Proof.Machine
end

section
/-! SETTLED. The record of a request read back (O6). -/

namespace Sys2Proof.Machine

/-! ### Fields of a body, from its pieces -/

section
variable {v : Nat} {n k m : Nat} {x : Int} {xs ys : List Byte}

theorem fits_iff : fits n v = true ↔ v < 2 ^ (8 * n) := decide_eq_true_iff

theorem fitsInt_iff : fitsInt x = true ↔ -2147483648 ≤ x ∧ x ≤ 2147483647 := by
  rw [fitsInt, Bool.and_eq_true, decide_eq_true_iff, decide_eq_true_iff]

theorem fits_mask (mask : BitVec 16) : fits 2 mask.toNat = true := fits_iff.mpr mask.isLt

theorem fieldNat_append (past : xs.length ≤ k) : fieldNat (xs ++ ys) k m = fieldNat ys (k - xs.length) m := by
  rw [fieldNat, bytesAt, List.drop_append, List.drop_eq_nil_of_le past, List.nil_append]
  rfl

theorem fieldInt_append (past : xs.length ≤ k) : fieldInt (xs ++ ys) k m = fieldInt ys (k - xs.length) m := by
  rw [fieldInt, fieldNat_append past]
  rfl

theorem fieldNat_cons (b : Byte) : fieldNat (b :: ys) (k + 1) m = fieldNat ys k m := rfl

theorem fieldInt_cons (b : Byte) : fieldInt (b :: ys) (k + 1) m = fieldInt ys k m := rfl

theorem fieldNat_drop : fieldNat (xs.drop n) k m = fieldNat xs (n + k) m := by
  rw [fieldNat, bytesAt, List.drop_drop]
  rfl

theorem fieldNat_byte (fit : fits 1 v = true) : fieldNat (byteOf v :: ys) 0 1 = v := by
  have below : v < 256 := fits_iff.mp fit
  show (byteOf v).toNat + 256 * 0 = v
  rw [byteOf, BitVec.toNat_ofNat, Nat.mod_eq_of_lt below]
  rfl

theorem leBytes_mod (v : Nat) : v % 256 ^ n = v % 2 ^ (8 * n) := by
  rw [Nat.pow_mul]

theorem fieldNat_first (fit : fits n v = true) : fieldNat (leBytes n v ++ ys) 0 n = v := by
  have read := fieldNat_leBytes [] ys n v
  rw [List.nil_append, List.length_nil] at read
  rw [read, leBytes_mod, Nat.mod_eq_of_lt (fits_iff.mp fit)]

theorem fieldNat_only (fit : fits n v = true) : fieldNat (leBytes n v) 0 n = v := by
  have read := fieldNat_first (ys := []) fit
  rwa [List.append_nil] at read

theorem fieldInt_first (fit : fitsInt x = true) : fieldInt (leBytesInt 4 x ++ ys) 0 4 = x := by
  obtain ⟨low, high⟩ := fitsInt_iff.mp fit
  have whole : fits 4 (x % (2 : Int) ^ (8 * 4)).toNat = true := fits_iff.mpr (by omega)
  rw [fieldInt, leBytesInt, fieldNat_first whole, asSigned]
  split <;> omega

theorem fieldInt_only (fit : fitsInt x = true) : fieldInt (leBytesInt 4 x) 0 4 = x := by
  have read := fieldInt_first (ys := []) fit
  rwa [List.append_nil] at read

end

/-! ### The bodies with several fields -/

theorem axisRecordOf_bytes {target : Nat} {record : AxisSetRecord} (wf : record.wf target = true) :
    fits 1 target = true ∧ axisRecordOf target (axisRecordBytes record) = record := by
  cases record with
  | timing f =>
    obtain ⟨rfl, fit⟩ : target = 12 ∧ f.wf = true := by simpa [AxisSetRecord.wf] using wf
    simp only [TimingFields.wf, Bool.and_eq_true, and_assoc] at fit
    refine ⟨rfl, ?_⟩
    simp [axisRecordOf, axisRecordBytes, fieldNat_append, fieldNat_cons, fieldNat_byte, fieldNat_first, fit]
  | channel f =>
    obtain ⟨other, short, fit⟩ : target ≠ 12 ∧ fits 1 target = true ∧ f.wf = true := by
      simpa [AxisSetRecord.wf, and_assoc] using wf
    simp only [AxisFields.wf, Bool.and_eq_true, and_assoc] at fit
    refine ⟨short, ?_⟩
    simp [axisRecordOf, axisRecordBytes, other, fieldNat_append, fieldInt_append, fieldNat_cons, fieldInt_cons,
      fieldNat_byte, fieldNat_first, fieldInt_first, fieldNat_only, fit]

theorem boxOf_bytes {b : Box} (wf : b.wf = true) (ys : List Byte) : boxOf (boxBytes b ++ ys) = b := by
  simp only [Box.wf, Bool.and_eq_true, and_assoc] at wf
  simp [boxOf, boxBytes, fieldInt_append, fieldInt_first, wf]

theorem boxBytes_length (b : Box) : (boxBytes b).length = 24 := by simp [boxBytes]

theorem zoneFieldsOf_bytes {f : ZoneFields} (wf : f.wf = true) : zoneFieldsOf (zoneFieldsBytes f) = f := by
  simp only [ZoneFields.wf, Bool.and_eq_true, and_assoc] at wf
  simp [zoneFieldsOf, zoneFieldsBytes, boxOf_bytes, boxBytes_length, fieldNat_append, fieldNat_cons, fieldNat_byte,
    fieldNat_first, wf]

theorem geometryFieldsOf_bytes {tag : Byte} {g : GeometryFields} (wf : g.wf = true) :
    geometryFieldsOf (bodyOf (.geometrySet tag g)) = g := by
  simp only [GeometryFields.wf, Bool.and_eq_true, and_assoc] at wf
  simp [geometryFieldsOf, bodyOf, fieldNat_first, fieldInt_append, fieldInt_first, fieldInt_only, wf]

theorem targetFieldsOf_bytes {tag : Byte} {f : TargetFields} (wf : f.wf = true) :
    targetFieldsOf (bodyOf (.targetUpdate tag f)) = f := by
  simp only [TargetFields.wf, Point.wf, Bool.and_eq_true, and_assoc] at wf
  simp [targetFieldsOf, bodyOf, pointBytes, fieldNat_append, fieldNat_first, fieldInt_append, fieldInt_first,
    fieldInt_only, wf]

theorem recordStartOf_bytes {tag : Byte} {f : RecordStartFields} (wf : f.wf = true) :
    recordStartOf (bodyOf (.recordStart tag f)) = f := by
  simp only [RecordStartFields.wf, Bool.and_eq_true, and_assoc] at wf
  simp [recordStartOf, bodyOf, fieldNat_append, fieldNat_cons, fieldNat_byte, fieldNat_only, fits_mask, wf]

theorem vector_four {α : Type} (v : Vector α 4) : v = #v[v[0], v[1], v[2], v[3]] := by
  ext k below
  obtain rfl | rfl | rfl | rfl : k = 0 ∨ k = 1 ∨ k = 2 ∨ k = 3 := by omega
  all_goals rfl

theorem importOf_bytes {tag : Byte} {f : ImportFields} (wf : f.wf = true) :
    importOf (bodyOf (.takeImport tag f)) = f := by
  simp only [ImportFields.wf, Bool.and_eq_true, and_assoc] at wf
  have modes : f.modes.toList = [f.modes[0], f.modes[1], f.modes[2], f.modes[3]] :=
    congrArg Vector.toList (vector_four f.modes)
  simp only [importOf, bodyOf, modes]
  simp [fieldNat_append, fieldNat_cons, fieldNat_byte, fieldNat_first, fits_mask, wf]
  rw [← vector_four]

theorem byteOf_bitsOf_getElem (bits : List Bool) {k : Nat} (below : k < 8) :
    (byteOf (bitsOf bits))[k] = bits.getD k false :=
  (BitVec.getLsbD_eq_getElem below).symm.trans (byteOf_bitsOf_getLsbD bits below)

theorem cueFieldsOf_bytes {f : CueFields} (wf : f.wf = true) : cueFieldsOf (cueFieldsBytes f) = f := by
  simp only [CueFields.wf, Bool.and_eq_true, and_assoc] at wf
  simp [cueFieldsOf, cueFieldsBytes, byteAt, byteOf_bitsOf_getElem, fieldNat_append, fieldNat_cons, fieldNat_byte,
    fieldNat_first, fieldNat_only, fits_mask, wf]

/-! ### Lens Points -/

/-- The bytes of a pair. -/
def lensPairBytes (p : LensPair) : List Byte := leBytes 4 p.phys ++ leBytesInt 4 p.count

theorem lensPairs_length (pairs : List LensPair) : (pairs.flatMap lensPairBytes).length = 8 * pairs.length := by
  induction pairs with
  | nil => rfl
  | cons p pairs ih =>
    simp only [List.flatMap_cons, List.length_append, ih, lensPairBytes, leBytes_length, leBytesInt_length,
      List.length_cons]
    omega

/-- The pair at a place, read from the bytes of the pairs. -/
theorem lensPairs_read {pairs : List LensPair} {p : LensPair} {i : Nat} (here : pairs[i]? = some p)
    (wf : fits 4 p.phys = true ∧ fitsInt p.count = true) (ys : List Byte) :
    fieldNat (pairs.flatMap lensPairBytes ++ ys) (8 * i) 4 = p.phys ∧
    fieldInt (pairs.flatMap lensPairBytes ++ ys) (8 * i + 4) 4 = p.count := by
  induction pairs generalizing i with
  | nil => exact nomatch here
  | cons q pairs ih =>
    rw [List.flatMap_cons, List.append_assoc]
    have size : (lensPairBytes q).length = 8 := by simp [lensPairBytes]
    cases i with
    | zero =>
      cases here
      simp [lensPairBytes, fieldNat_first, fieldInt_append, fieldInt_first, wf]
    | succ i =>
      rw [fieldNat_append (by omega), fieldInt_append (by omega), size]
      have phys : 8 * (i + 1) - 8 = 8 * i := by omega
      have count : 8 * (i + 1) + 4 - 8 = 8 * i + 4 := by omega
      rw [phys, count]
      exact ih here

theorem lensPoints_body (tag : Byte) (f : LensPointsFields) : bodyOf (.lensPoints tag f) =
    byteOf f.channel :: byteOf f.start :: (spare 2 ++ (f.pairs.flatMap lensPairBytes ++ spare f.extra)) := by
  simp [bodyOf]
  rfl

theorem lensPointsOf_bytes {tag : Byte} {f : LensPointsFields} (wf : f.wf = true) :
    lensPointsOf (bodyOf (.lensPoints tag f)) = f := by
  simp only [LensPointsFields.wf, Bool.and_eq_true, decide_eq_true_eq, List.all_eq_true, and_assoc] at wf
  obtain ⟨channel, start, extra, -, pairs⟩ := wf
  have body := lensPoints_body tag f
  have length : (bodyOf (.lensPoints tag f)).length - 4 = 8 * f.pairs.length + f.extra := by
    rw [body]
    simp only [List.length_cons, List.length_append, spare_length, lensPairs_length]
    omega
  have read (i : Nat) (below : i < f.pairs.length) :
      fieldNat (bodyOf (.lensPoints tag f)) (4 + 8 * i) 4 = f.pairs[i].phys ∧
      fieldInt (bodyOf (.lensPoints tag f)) (8 + 8 * i) 4 = f.pairs[i].count := by
    have pair := lensPairs_read (List.getElem?_eq_getElem below) (pairs _ (List.getElem_mem below)) (spare f.extra)
    have phys : 4 + 8 * i = 2 + 8 * i + 1 + 1 := by omega
    have count : 8 + 8 * i = 2 + (8 * i + 4) + 1 + 1 := by omega
    rw [body, phys, count, fieldNat_cons, fieldNat_cons, fieldInt_cons, fieldInt_cons,
      fieldNat_append (by rw [spare_length]; omega), fieldInt_append (by rw [spare_length]; omega), spare_length,
      Nat.add_sub_cancel_left, Nat.add_sub_cancel_left]
    exact pair
  have count : (8 * f.pairs.length + f.extra) / 8 = f.pairs.length := by omega
  have over' : (8 * f.pairs.length + f.extra) % 8 = f.extra := by omega
  unfold lensPointsOf
  rw [length, count, over']
  have firstFields : fieldNat (bodyOf (.lensPoints tag f)) 0 1 = f.channel ∧
      fieldNat (bodyOf (.lensPoints tag f)) 1 1 = f.start := by
    rw [body]
    simp [fieldNat_cons, fieldNat_byte, channel, start]
  have list : ((List.range f.pairs.length).map fun i =>
      ({ phys := fieldNat (bodyOf (.lensPoints tag f)) (4 + 8 * i) 4
         count := fieldInt (bodyOf (.lensPoints tag f)) (8 + 8 * i) 4 } : LensPair)) = f.pairs := by
    refine List.ext_getElem (by simp) fun i _ below => ?_
    obtain ⟨phys, count⟩ := read i below
    simp [phys, count]
  rw [firstFields.1, firstFields.2, list]

/-! ### Every request -/

/-- R19, R21: the body of a well-formed request is that request's. -/
theorem requestOf_bodyOf {i : Instr} {k : Byte} (wf : i.wf = true) (kind : kindOf i = some k) :
    requestOf k (tagOf i) (bodyOf i) = some i := by
  cases i
  case cycleFrame | fillCycle | driveFrameReturn | malformedRecord | unknownRecord | reset | eStopOpen | eStopClose |
      guardOpen | guardClose | stillTimeout | brakeTimer | brakeTimeout | releaseTimer | armingTimeout | syncEdge |
      lossTime | edgeSynthesis | phasePointExpiry | pageReadComplete | pageProgramComplete | bayEraseComplete |
      scanReadComplete | autoPoll => exact nomatch kind
  all_goals cases kind
  case restart | continueStop | recordStop | protectionFreeze | arrayClear | cuePoll | playerStop | go | resume |
      abandon => rfl
  all_goals refine congrArg some ?_
  case mode tag want | axisRead tag want | zoneClear tag want | zoneRead tag want | stop tag want | rearm tag want |
      takeErase tag want | takeLock tag want | directoryRead tag want | importClose tag want | cueRead tag want =>
    have fit : fits 1 want = true := wf
    simp [bodyOf, tagOf, fieldNat_byte, fit]
  case gatewaySet tag period missLimit =>
    obtain ⟨periodFits, missFits⟩ := Bool.and_eq_true_iff.mp wf
    simp [bodyOf, tagOf, fieldNat_first, fieldNat_append, fieldNat_byte, periodFits, missFits]
  case axisSet tag target record =>
    obtain ⟨fit, same⟩ := axisRecordOf_bytes wf
    simp [bodyOf, tagOf, fieldNat_byte, spare, fit, same]
  case sourceLive tag mask => simp [bodyOf, tagOf, fieldNat_only, fits_mask]
  case geometrySet tag g => rw [geometryFieldsOf_bytes wf]; rfl
  case zoneSet tag f => rw [bodyOf, zoneFieldsOf_bytes wf]; rfl
  case liveZoneUpdate tag index box =>
    obtain ⟨fit, boxFits⟩ := Bool.and_eq_true_iff.mp wf
    have same := boxOf_bytes boxFits []
    rw [List.append_nil] at same
    simp [bodyOf, tagOf, fieldNat_byte, spare, fit, same]
  case lensModeSet tag channel mode | lensCommit tag channel mode =>
    obtain ⟨fit, modeFits⟩ := Bool.and_eq_true_iff.mp wf
    simp [bodyOf, tagOf, fieldNat_byte, fieldNat_cons, fit, modeFits]
  case lensPoints tag f => rw [lensPointsOf_bytes wf]; rfl
  case lensTableRead tag f =>
    simp only [Instr.wf, TableReadFields.wf, Bool.and_eq_true, and_assoc] at wf
    simp [bodyOf, tagOf, fieldNat_byte, fieldNat_cons, wf]
  case targetUpdate tag f => rw [targetFieldsOf_bytes wf]; rfl
  case syncSet tag weight preset value =>
    simp only [Instr.wf, Bool.and_eq_true, and_assoc] at wf
    simp [bodyOf, tagOf, fieldNat_byte, fieldNat_cons, fieldNat_append, fieldNat_first, fieldNat_only, wf]
  case recordStart tag f => rw [recordStartOf_bytes wf]; rfl
  case takeRead tag slot page =>
    obtain ⟨fit, pageFits⟩ := Bool.and_eq_true_iff.mp wf
    simp [bodyOf, tagOf, fieldNat_byte, fieldNat_cons, fieldNat_append, fieldNat_only, fit, pageFits]
  case takeImport tag f => rw [importOf_bytes wf]; rfl
  case pageWrite tag slot page =>
    simp only [Instr.wf, Bool.and_eq_true, and_assoc] at wf
    simp [bodyOf, tagOf, fieldNat_byte, spare, wf]
  case cueWrite tag f => rw [bodyOf, cueFieldsOf_bytes wf]; rfl
  case playerStart tag interval =>
    have fit : fits 2 interval = true := wf
    simp [bodyOf, tagOf, fieldNat_only, fit]

theorem lengthWithin {k : Byte} {body : List Byte} {least : Nat} (known : minLength k = some least)
    (low : least ≤ 4 + body.length) (high : 4 + body.length ≤ 480) :
    4 + body.length ≤ 480 ∧ ∀ m, minLength k = some m → m ≤ 4 + body.length :=
  ⟨high, fun m min => by rw [known] at min; cases min; exact low⟩

theorem axisRecordBytes_length (record : AxisSetRecord) : (axisRecordBytes record).length = 36 := by
  cases record <;> simp [axisRecordBytes]

/-- Section 11.3: the lengths of the bodies. -/
theorem bodyOf_length {i : Instr} {k : Byte} (wf : i.wf = true) (kind : kindOf i = some k) :
    4 + (bodyOf i).length ≤ 480 ∧ ∀ m, minLength k = some m → m ≤ 4 + (bodyOf i).length := by
  cases i
  case cycleFrame | fillCycle | driveFrameReturn | malformedRecord | unknownRecord | reset | eStopOpen | eStopClose |
      guardOpen | guardClose | stillTimeout | brakeTimer | brakeTimeout | releaseTimer | armingTimeout | syncEdge |
      lossTime | edgeSynthesis | phasePointExpiry | pageReadComplete | pageProgramComplete | bayEraseComplete |
      scanReadComplete | autoPoll => exact nomatch kind
  all_goals cases kind
  case lensPoints tag f =>
    simp only [Instr.wf, LensPointsFields.wf, Bool.and_eq_true, decide_eq_true_eq, and_assoc] at wf
    obtain ⟨-, -, -, most, -⟩ := wf
    have length : (bodyOf (.lensPoints tag f)).length = 4 + (8 * f.pairs.length + f.extra) := by
      rw [lensPoints_body]
      simp only [List.length_cons, List.length_append, spare_length, lensPairs_length]
      omega
    exact lengthWithin (least := 8) rfl (by omega) (by omega)
  case pageWrite tag slot page =>
    simp only [Instr.wf, Bool.and_eq_true, decide_eq_true_eq, and_assoc] at wf
    have length : (bodyOf (.pageWrite tag slot page)).length = 4 + page.length := by simp [bodyOf]; omega
    exact lengthWithin (least := 262) rfl (by omega) (by omega)
  case axisSet tag target record =>
    have length : (bodyOf (.axisSet tag target record)).length = 40 := by simp [bodyOf, axisRecordBytes_length]
    exact lengthWithin (least := 44) rfl (by omega) (by omega)
  all_goals
    exact lengthWithin rfl (by simp [bodyOf, zoneFieldsBytes, boxBytes_length, cueFieldsBytes, pointBytes])
      (by simp [bodyOf, zoneFieldsBytes, boxBytes_length, cueFieldsBytes, pointBytes])

/-- R19 to R21: a record within its lengths is read as the request of its body. -/
theorem firstRecord_recordBytes {k tag : Byte} {body rest : List Byte} {i : Instr}
    (length : 4 + body.length ≤ 480 ∧ ∀ m, minLength k = some m → m ≤ 4 + body.length)
    (read : requestOf k tag body = some i) :
    firstRecord (recordBytes k tag body ++ rest) = (⟨k, tag, i⟩, rest) := by
  obtain ⟨most, least⟩ := length
  have lane : recordBytes k tag body ++ rest = k :: tag :: (leBytes 2 (4 + body.length) ++ (body ++ rest)) := by
    simp [recordBytes]
  have size : (recordBytes k tag body ++ rest).length = 4 + body.length + rest.length := by
    rw [lane]
    simp
    omega
  have field : fieldNat (recordBytes k tag body ++ rest) 2 2 = 4 + body.length := by
    rw [lane, fieldNat_cons, fieldNat_cons, fieldNat_first (fits_iff.mpr (by omega))]
  have kindByte : byteAt (recordBytes k tag body ++ rest) 0 = k := by rw [lane]; rfl
  have tagByte : byteAt (recordBytes k tag body ++ rest) 1 = tag := by rw [lane]; rfl
  have known : recordLength (recordBytes k tag body ++ rest) = some (4 + body.length) := by
    unfold recordLength
    rw [field, kindByte, size]
    dsimp only
    rw [if_neg (by omega)]
    cases min : minLength k with
    | none => rfl
    | some m => exact if_neg (Nat.not_lt.mpr (least m min))
  have header : (k :: tag :: leBytes 2 (4 + body.length)).length = 4 := by simp
  have split : recordBytes k tag body ++ rest = (k :: tag :: leBytes 2 (4 + body.length)) ++ (body ++ rest) := lane
  have bodyBytes : bytesAt (recordBytes k tag body ++ rest) 4 (4 + body.length - 4) = body := by
    rw [bytesAt, split, List.drop_left' header, Nat.add_sub_cancel_left, List.take_left]
  have after : (recordBytes k tag body ++ rest).drop (4 + body.length) = rest := by
    rw [split, ← List.append_assoc]
    exact List.drop_left' (by rw [List.length_append, header])
  unfold firstRecord
  rw [known]
  dsimp only
  rw [kindByte, tagByte, bodyBytes, read, after]

/-- Settles O6, by the lengths and the fields of each body. -/
theorem recordRoundTrip : Obligations.RecordRoundTrip := by
  unfold Obligations.RecordRoundTrip
  intro i k rest wf kind
  have record : encodeRecord i = recordBytes k (tagOf i) (bodyOf i) := by rw [encodeRecord, kind]
  rw [record]
  exact firstRecord_recordBytes (bodyOf_length wf kind) (requestOf_bodyOf wf kind)

end Sys2Proof.Machine
end

section
/-! SETTLED. The controller's choice, the arrival of a request, and that no step leaves it work undone (R139 to
R141). -/

namespace Sys2Proof.Machine

theorem TakeArray.available_iff (t : TakeArray) (j : Job) : t.Available j ↔ t.performs j = true := by
  unfold TakeArray.Available TakeArray.performs
  simp only [Bool.or_eq_true, Bool.and_eq_true, decide_eq_true_eq, and_assoc]
  refine or_congr Iff.rfl (and_congr Iff.rfl (and_congr Iff.rfl ?_))
  cases page : j.dataPage with
  | none => simp
  | some k => simp [DirectorySlot.locate]

section
variable {p : Part}

/-- A request that is not available is completed, and the controller chooses again. -/
theorem Part.choose_unavailable {j : Job} {more : List Job} (idle : p.array.operation = none)
    (ended : p.array.scan = none) (front : p.array.line = j :: more) (out : ¬ p.array.Available j) :
    p.choose = (p.taken.jobUnavailable j).choose := by
  rw [Part.choose_takes idle ended front, Part.startJob,
    if_neg fun performs => out ((TakeArray.available_iff p.taken.array j).2 performs)]

/-- A request that is available becomes the operation in progress. -/
theorem Part.choose_available {j : Job} {more : List Job} (idle : p.array.operation = none)
    (ended : p.array.scan = none) (front : p.array.line = j :: more) (available : p.array.Available j) :
    p.choose = { p.taken with array := { p.taken.array with operation := some (.job j false) } } := by
  rw [Part.choose_takes idle ended front, Part.startJob, if_pos ((TakeArray.available_iff p.taken.array j).1 available)]
  exact Part.choose_rests (.inl nofun)

/-- With nothing waiting an erase resumes, or begins, or the array rests. -/
theorem TakeArray.startErase_eq (t : TakeArray) : t.startErase = (match t.suspended, t.dirty with
    | some bay, _ => { t with operation := some (.erase bay), suspended := none }
    | none, bay :: rest => { t with operation := some (.erase bay), dirty := rest }
    | none, [] => t) := by
  unfold TakeArray.startErase
  cases t.suspended with
  | some bay => rfl
  | none => cases t.dirty <;> rfl

theorem Part.kick_job {j : Job} {w : Bool} (job : p.array.operation = some (.job j w)) : p.kick = p := by
  unfold Part.kick
  rw [job]

theorem Part.kick_idle_eq (idle : p.array.operation = none) : p.kick = p.choose := by
  unfold Part.kick
  rw [idle]

theorem Part.kick_erase {bay : Bay} (erase : p.array.operation = some (.erase bay)) :
    p.kick = if p.array.waiting = 0 then p
      else Part.choose { p with array := { p.array with operation := none, suspended := some bay } } := by
  unfold Part.kick
  rw [erase]

theorem TakeArray.waiting_zero {t : TakeArray} :
    t.waiting = 0 ↔ t.playerJobs = [] ∧ t.recorderJobs = [] ∧ t.laneJobs = [] := by
  rw [← TakeArray.line_nil, ← TakeArray.line_length, List.length_eq_zero_iff]

end

/-- Settles O14, by the controller's rounds and by the laws that every piece of work keeps. -/
theorem controllerChooses : Obligations.ControllerChooses := by
  unfold Obligations.ControllerChooses
  refine ⟨fun p => ⟨Part.choose_rests, fun idle ended => ⟨fun j more front => ⟨?_, ?_⟩, fun player recorder lane => ?_⟩,
    fun j w job => Part.kick_job job, fun bay erase => ⟨fun none => ?_, fun some => ?_⟩, Part.kick_idle_eq⟩,
    fun s t law stepped => (step_keeps stepped).work trivial law⟩
  · exact Part.choose_available idle ended front
  · intro out
    rw [Part.choose_unavailable idle ended front out]
    cases j <;> rfl
  · rw [Part.choose_erases idle ended (TakeArray.line_nil.2 ⟨player, recorder, lane⟩)]
    exact congrArg (fun t : TakeArray => { p with array := t }) p.array.startErase_eq
  · rw [Part.kick_erase erase, if_pos (TakeArray.waiting_zero.2 none)]
  · rw [Part.kick_erase erase, if_neg fun none => some (TakeArray.waiting_zero.1 none)]

end Sys2Proof.Machine
end

section
/-! SETTLED. What the completions of the array leave (R139, R141, R149, R150, R153, R155). -/

namespace Sys2Proof.Machine

/-! ### Bytes -/

/-- A byte put where it is not 0xFF is read back, whatever the cells. -/
theorem lookupCell_putCell_same {x : Nat} {b : Byte} (written : b ≠ erasedByte) (cs : List Host.Cell) :
    lookupCell (putCell cs x b) x = b := by
  induction cs with
  | nil => simp [putCell, written, lookupCell]
  | cons c rest ih =>
    obtain ⟨a, d⟩ := c
    unfold putCell
    rw [if_neg written, if_neg written]
    split
    · simp [lookupCell]
    split
    · simp [lookupCell]
    · next ne => simp [lookupCell, Ne.symm ne, ih]

theorem programmedByte_zero (old : Byte) : programmedByte old 0#8 ≠ erasedByte := by
  unfold programmedByte
  split
  · next zero => exact absurd zero (by decide)
  split
  · decide
  · next programmed =>
    split
    · exact programmed
    split
    · exact programmed
    · assumption

theorem ArrayMemory.read_programByte_zero (m : ArrayMemory) (a : Nat) : (m.programByte a 0#8).read a ≠ 0xFF#8 := by
  unfold ArrayMemory.programByte ArrayMemory.put ArrayMemory.read
  rw [lookupCell_putCell_same (programmedByte_zero _)]
  exact programmedByte_zero _

theorem ArrayMemory.read_programByte_ne (m : ArrayMemory) {a x : Nat} (other : x ≠ a) (b : Byte) :
    (m.programByte a b).read x = m.read x := ArrayMemory.read_put_ne other _

/-! ### After the controller has chosen -/

/-- The part is p with an array and a reply queue of its own, once the controller has chosen. -/
def Part.Chosen (p t : Part) (u : TakeArray) : Prop := ∃ lane, t = Part.choose { p with lane := lane, array := u }

/-- A retire that waits or is in progress does so still, once the controller has chosen. -/
theorem Part.chooseRounds_holds {j : Job} (retire : j.isRetire = true) (n : Nat) {s : Part}
    (holds : s.array.LaneHolds j) : (Part.chooseRounds n s).array.LaneHolds j := by
  induction n generalizing s with
  | zero => exact holds
  | succ n ih =>
    by_cases free : s.array.operation = none ∧ s.array.scan = none
    · obtain ⟨idle, ended⟩ := free
      have waits : j ∈ s.array.laneJobs := holds.resolve_right (by rw [idle]; exact nofun)
      cases front : s.array.line with
      | nil =>
        rw [(TakeArray.line_nil.1 front).2.2] at waits
        exact absurd waits List.not_mem_nil
      | cons k more =>
        rw [Part.chooseRounds_takes idle ended front]
        refine ih ?_
        by_cases lane : s.array.playerJobs = [] ∧ s.array.recorderJobs = []
        · have list : s.array.laneJobs = k :: more := by
            rw [TakeArray.line, lane.1, lane.2] at front
            exact front
          have taken : s.taken.array.laneJobs = more := by
            unfold Part.taken
            simp [lane, list]
          rw [list] at waits
          unfold Part.startJob
          rcases List.mem_cons.1 waits with rfl | rest
          · rw [if_pos (by simp [TakeArray.performs, retire])]
            exact .inr rfl
          · split
            · exact .inl (taken.symm ▸ rest)
            · have reads := (s.taken.jobUnavailable_reads k).array
              exact .inl (by rw [reads.same]; exact taken.symm ▸ rest)
        · have taken : s.taken.array.laneJobs = s.array.laneJobs := by
            unfold Part.taken
            simp only [lane, if_false]
          unfold Part.startJob
          split
          · exact .inl (taken.symm ▸ waits)
          · have reads := (s.taken.jobUnavailable_reads k).array
            exact .inl (by rw [reads.same]; exact taken.symm ▸ waits)
    · rw [Part.chooseRounds_rests (by simpa only [ne_eq, ← Classical.not_and_iff_not_or_not] using free)]
      exact holds

/-- Of the dirty queue the choice takes at most the head, which it then erases; where nothing is suspended it begins no
other erase. -/
theorem Part.chooseRounds_dirty (n : Nat) {s : Part} (idle : s.array.operation = none) :
    ((Part.chooseRounds n s).array.dirty = s.array.dirty ∧
      (s.array.suspended = none → ∀ b, (Part.chooseRounds n s).array.operation ≠ some (.erase b))) ∨
    ∃ b, s.array.dirty = b :: (Part.chooseRounds n s).array.dirty ∧
      (Part.chooseRounds n s).array.operation = some (.erase b) := by
  induction n generalizing s with
  | zero => exact .inl ⟨rfl, fun _ b erase => by rw [Part.chooseRounds, idle] at erase; exact nomatch erase⟩
  | succ n ih =>
    by_cases ended : s.array.scan = none
    · cases front : s.array.line with
      | nil =>
        rw [Part.chooseRounds_erases idle ended front]
        dsimp only
        unfold TakeArray.startErase
        split
        · next suspended => exact .inl ⟨rfl, fun none => by rw [suspended] at none; exact nomatch none⟩
        · split
          · next dirty => exact .inr ⟨_, dirty, rfl⟩
          · exact .inl ⟨rfl, fun _ b erase => by rw [idle] at erase; exact nomatch erase⟩
      | cons k more =>
        rw [Part.chooseRounds_takes idle ended front]
        unfold Part.startJob
        split
        · rw [Part.chooseRounds_rests (.inl (by exact nofun))]
          exact .inl ⟨rfl, fun _ b => nofun⟩
        · have reads := (s.taken.jobUnavailable_reads k).array
          have rest := ih (s := s.taken.jobUnavailable k) (reads.none_iff.2 idle)
          have dirty : (s.taken.jobUnavailable k).array.dirty = s.array.dirty := by rw [reads.same]; rfl
          have suspended : (s.taken.jobUnavailable k).array.suspended = s.array.suspended := by rw [reads.same]; rfl
          rwa [dirty, suspended] at rest
    · rw [Part.chooseRounds_rests (.inr ended)]
      exact .inl ⟨rfl, fun _ b erase => by rw [idle] at erase; exact nomatch erase⟩

section
variable {p t : Part} {u : TakeArray}

theorem Part.Chosen.memory (h : p.Chosen t u) : t.array.memory = u.memory := by
  obtain ⟨_, rfl⟩ := h
  exact (Part.choose_work _).memoryEq

theorem Part.Chosen.directory (h : p.Chosen t u) : t.array.directory = u.directory := by
  obtain ⟨_, rfl⟩ := h
  exact (Part.choose_work _).directory

theorem Part.Chosen.erased (h : p.Chosen t u) : t.array.erased = u.erased := by
  obtain ⟨_, rfl⟩ := h
  exact (Part.choose_work _).erased

theorem Part.Chosen.holds (h : p.Chosen t u) {j : Job} (retire : j.isRetire = true) (waits : j ∈ u.laneJobs) :
    t.array.LaneHolds j := by
  obtain ⟨_, rfl⟩ := h
  exact Part.chooseRounds_holds retire _ (.inl waits)

theorem Part.Chosen.dirty (h : p.Chosen t u) (idle : u.operation = none) :
    (t.array.dirty = u.dirty ∧ (u.suspended = none → ∀ b, t.array.operation ≠ some (.erase b))) ∨
    ∃ b, u.dirty = b :: t.array.dirty ∧ t.array.operation = some (.erase b) := by
  obtain ⟨lane, rfl⟩ := h
  exact Part.chooseRounds_dirty _ (s := { p with lane := lane, array := u }) idle

/-- The same, with the bytes and the directory read off the part. -/
theorem Part.Chosen.readOff (h : p.Chosen t u) :
    p.Chosen t { u with memory := t.array.memory, directory := t.array.directory } := by
  rw [h.memory, h.directory]
  exact h

/-- A reply that is Ready stays so while the controller chooses. -/
theorem Part.choose_ready (s : Part) {e : ReplyEntry} (ready : e.answer ≠ none) (member : e ∈ s.lane.queue) :
    e ∈ s.choose.lane.queue := by
  obtain ⟨_, answered⟩ := s.choose_work.lane
  obtain ⟨i, there⟩ := List.mem_iff_getElem?.1 member
  exact List.mem_iff_getElem?.2 ⟨i, answered.at_ready there ready⟩

/-- An entry that waits for an answer is Ready with it, and stays so while the controller chooses. -/
theorem Part.choose_answered (p : Part) (u : TakeArray) {n : Nat} {e : ReplyEntry} (a : Answer)
    (member : e ∈ p.lane.queue) (named : e.ticket = n) (waiting : e.answer = none) :
    { e with answer := some a } ∈ (Part.choose { p with lane := p.lane.answer n a, array := u }).lane.queue := by
  refine Part.choose_ready _ nofun (List.mem_map.2 ⟨e, member, ?_⟩)
  unfold ReplyEntry.give
  rw [if_pos ⟨named, waiting⟩]

end

/-! ### Reads and programs -/

section
variable {p : Part} {n k : Nat} {i : DirIx} {bay : Bay} {w : Bool}

/-- R153: the answer to a Take Read whose page has been read. -/
def TakeArray.readAnswer (t : TakeArray) (i : DirIx) (k : Nat) : Answer :=
  match t.readData i k with
  | some bytes => ⟨.done, bytes⟩
  | none => ⟨.invalid, []⟩

theorem Part.readCompleted_takeRead (job : p.array.operation = some (.job (.takeRead n i k) w)) :
    p.readCompleted = Part.choose { p with
      lane := p.lane.answer n (p.array.readAnswer i k)
      array := { p.array with operation := none } } := by
  unfold Part.readCompleted
  rw [job]
  dsimp only
  rw [if_pos (by rfl)]
  unfold Part.finishRead Part.clearOperation TakeArray.readAnswer
  dsimp only
  have same : TakeArray.readData { p.array with operation := none } i k = p.array.readData i k := rfl
  rw [same]
  cases p.array.readData i k <;> rfl

/-- A program that has completed, by what its requester is told. -/
theorem Part.programCompleted_eq {j : Job} (job : p.array.operation = some (.job j w)) (program : j.isRead = false) :
    p.programCompleted =
      (Part.finishProgram { p with array := { p.array with memory := p.array.programmed j } } j).clearOperation.choose := by
  unfold Part.programCompleted
  rw [job]
  dsimp only
  rw [if_neg (by rw [program]; exact nofun)]

/-- R149: the slot of a retire, the dirty queue and the retire of the next bay. -/
theorem TakeArray.retired_eq (t : TakeArray) (i : DirIx) (bay : Bay) :
    t.retired i bay =
      let left := t.directory[i].bays.filter fun b => decide (b ≠ bay)
      { t with
        dirty := t.dirty ++ [bay]
        directory := t.directory.set i (if left = [] then DirectorySlot.reset else { t.directory[i] with bays := left })
        laneJobs := t.laneJobs ++ left.head?.toList.map fun b => .retire i b } := by
  unfold TakeArray.retired
  dsimp only
  split
  · next left =>
    rw [left]
    simp [TakeArray.setSlot]
  · next left =>
    rw [left]
    simp [TakeArray.setSlot]

/-- A stall that does not wait for a bay is not ended by an erase. -/
theorem Part.bayForStall_same (beside : p.recorder.state ≠ .stalled ∨ p.recorder.reserved ≠ none ∨
    (∀ f, p.recorder.filling = some f → (((p.recorder.buffer f).page.getD 0) + 1) % 255 ≠ 0)) : p.bayForStall = p := by
  unfold Part.bayForStall
  split
  · next stalled =>
    split
    · next f _ filling _ =>
      dsimp only
      rw [if_neg]
      rintro wanted
      simp only [needsBay, Bool.and_eq_true, beq_iff_eq, Option.isNone_iff_eq_none] at wanted
      rcases beside with other | kept | room
      · exact other stalled
      · exact kept wanted.2
      · exact room f filling wanted.1
    · rfl
  · rfl

theorem Part.eraseCompleted_eq (erase : p.array.operation = some (.erase bay)) :
    p.eraseCompleted = (Part.bayForStall { p with array := p.array.bayErased bay }).choose := by
  unfold Part.eraseCompleted
  rw [erase]

end

end Sys2Proof.Machine
end

section
/-! SETTLED. The completions of reads, programs and erases, command by command. -/

namespace Sys2Proof.Machine

/-- An entry of the reply queue that waits under a ticket. -/
def ServiceLane.Awaits (l : ServiceLane) (n : Nat) (e : ReplyEntry) : Prop :=
  e ∈ l.queue ∧ e.ticket = n ∧ e.answer = none

/-- A slot that has counted a page's entries in. -/
def DirectorySlot.counted (d : DirectorySlot) (page : List Byte) : DirectorySlot :=
  let es := (parseEntries (Mask.size d.info.mask) page).getD []
  { d with
    dataPages := d.dataPages + 1
    samples := d.samples + (es.map Entry.samples).sum
    marks := d.marks + (es.map Entry.marks).sum
    gaps := d.gaps + (es.map Entry.gaps).sum }

section
variable {p : Part} {n k : Nat} {i : DirIx} {bay : Bay} {w : Bool}

/-- R153: a Take Read's page read. -/
theorem Part.takeRead_completed (job : p.array.operation = some (.job (.takeRead n i k) w)) :
    p.readCompleted.array.memory = p.array.memory ∧ p.Chosen p.readCompleted { p.array with operation := none } ∧
    ∀ e, p.lane.Awaits n e → { e with answer := (match p.array.readData i k with
      | some bytes => some ⟨.done, bytes⟩
      | none => some ⟨.invalid, []⟩) } ∈ p.readCompleted.lane.queue := by
  have completed := Part.readCompleted_takeRead job
  have chosen : p.Chosen p.readCompleted { p.array with operation := none } := ⟨_, completed⟩
  refine ⟨chosen.memory, chosen, fun e ⟨member, named, waiting⟩ => ?_⟩
  have answer : (match p.array.readData i k with
      | some bytes => some ⟨.done, bytes⟩
      | none => some ⟨.invalid, []⟩) = some (p.array.readAnswer i k) := by
    unfold TakeArray.readAnswer
    cases p.array.readData i k <;> rfl
  rw [answer, completed]
  exact p.choose_answered _ _ member named waiting

/-- R155: a Page Write's data program. -/
theorem Part.writeData_completed {es : List Byte} {x : Nat}
    (job : p.array.operation = some (.job (.writeData n i k es) w))
    (there : p.array.directory[i].dataAddress k = some x) :
    p.programCompleted.array.memory = p.array.memory.program x (dataPageBytes es) ∧
    p.programCompleted.array.directory = p.array.directory.set i (p.array.directory[i].counted es) ∧
    p.Chosen p.programCompleted { p.array with
      memory := p.programCompleted.array.memory, directory := p.programCompleted.array.directory, operation := none } ∧
    ∀ e, p.lane.Awaits n e → { e with answer := some ⟨.done, []⟩ } ∈ p.programCompleted.lane.queue := by
  have memory : p.array.programmed (.writeData n i k es) = p.array.memory.program x (dataPageBytes es) := by
    unfold TakeArray.programmed
    dsimp only
    rw [there]
  have completed : p.programCompleted = Part.choose { p with lane := p.lane.answer n ⟨.done, []⟩, array := { p.array with
      memory := p.array.memory.program x (dataPageBytes es)
      directory := p.array.directory.set i (p.array.directory[i].counted es)
      operation := none } } := by
    rw [Part.programCompleted_eq job rfl, memory]
    rfl
  have chosen : p.Chosen p.programCompleted { p.array with
      memory := p.array.memory.program x (dataPageBytes es)
      directory := p.array.directory.set i (p.array.directory[i].counted es)
      operation := none } := ⟨_, completed⟩
  refine ⟨chosen.memory, chosen.directory, chosen.readOff, fun e ⟨member, named, waiting⟩ => ?_⟩
  rw [completed]
  exact p.choose_answered _ ⟨.done, []⟩ member named waiting

/-- R150: a lock program. -/
theorem Part.lock_completed (job : p.array.operation = some (.job (.lock n i bay) w)) :
    p.programCompleted.array.directory = p.array.directory.set i { p.array.directory[i] with
      locked := true, lockPending := false } ∧
    (∀ x, x ≠ bay.val * 65536 + 65 → p.programCompleted.array.memory.read x = p.array.memory.read x) ∧
    p.programCompleted.array.memory.read (bay.val * 65536 + 65) ≠ 0xFF#8 ∧
    p.Chosen p.programCompleted { p.array with
      memory := p.programCompleted.array.memory, directory := p.programCompleted.array.directory, operation := none } ∧
    ∀ e, p.lane.Awaits n e → { e with answer := some ⟨.done, []⟩ } ∈ p.programCompleted.lane.queue := by
  have memory : p.array.programmed (.lock n i bay) = p.array.memory.programByte (bay.val * 65536 + 65) 0#8 := by
    unfold TakeArray.programmed
    dsimp only
    rw [pageAddress_zero]
  have completed : p.programCompleted = Part.choose { p with lane := p.lane.answer n ⟨.done, []⟩, array := { p.array with
      memory := p.array.memory.programByte (bay.val * 65536 + 65) 0#8
      directory := p.array.directory.set i { p.array.directory[i] with locked := true, lockPending := false }
      operation := none } } := by
    rw [Part.programCompleted_eq job rfl, memory]
    rfl
  have chosen : p.Chosen p.programCompleted { p.array with
      memory := p.array.memory.programByte (bay.val * 65536 + 65) 0#8
      directory := p.array.directory.set i { p.array.directory[i] with locked := true, lockPending := false }
      operation := none } := ⟨_, completed⟩
  refine ⟨chosen.directory, fun x other => ?_, ?_, chosen.readOff, fun e ⟨member, named, waiting⟩ => ?_⟩
  · rw [chosen.memory]
    exact ArrayMemory.read_programByte_ne _ other _
  · rw [chosen.memory]
    exact ArrayMemory.read_programByte_zero _ _
  · rw [completed]
    exact p.choose_answered _ ⟨.done, []⟩ member named waiting

/-- R149: a retire program of a Take Erase. -/
theorem Part.retire_completed (job : p.array.operation = some (.job (.retire i bay) w)) :
    let t := p.programCompleted
    let left := p.array.directory[i].bays.filter fun b => decide (b ≠ bay)
    (∀ x, x ≠ bay.val * 65536 + 64 → t.array.memory.read x = p.array.memory.read x) ∧
    t.array.memory.read (bay.val * 65536 + 64) ≠ 0xFF#8 ∧
    t.array.directory = p.array.directory.set i
      (if left = [] then DirectorySlot.reset else { p.array.directory[i] with bays := left }) ∧
    (∀ next, left.head? = some next → t.array.LaneHolds (.retire i next)) ∧
    p.Chosen t { p.array with
      memory := t.array.memory, directory := t.array.directory, operation := none
      dirty := p.array.dirty ++ [bay]
      laneJobs := p.array.laneJobs ++ (left.head?.toList.map fun next => .retire i next) } ∧
    (t.array.dirty = p.array.dirty ++ [bay] ∨
      ∃ b, p.array.dirty ++ [bay] = b :: t.array.dirty ∧ t.array.operation = some (.erase b)) := by
  intro t left
  have memory : p.array.programmed (.retire i bay) = p.array.memory.programByte (bay.val * 65536 + 64) 0#8 := by
    unfold TakeArray.programmed
    dsimp only
    rw [pageAddress_zero]
  have completed : t = Part.choose { p with lane := p.lane, array := { p.array with
      memory := p.array.memory.programByte (bay.val * 65536 + 64) 0#8
      directory := p.array.directory.set i
        (if left = [] then DirectorySlot.reset else { p.array.directory[i] with bays := left })
      operation := none
      dirty := p.array.dirty ++ [bay]
      laneJobs := p.array.laneJobs ++ (left.head?.toList.map fun next => .retire i next) } } := by
    refine (Part.programCompleted_eq job rfl).trans ?_
    rw [memory]
    unfold Part.finishProgram
    dsimp only
    rw [TakeArray.retired_eq]
    rfl
  have chosen : p.Chosen t _ := ⟨_, completed⟩
  refine ⟨fun x other => ?_, ?_, chosen.directory, fun next head => chosen.holds rfl ?_, chosen.readOff, ?_⟩
  · rw [chosen.memory]
    exact ArrayMemory.read_programByte_ne _ other _
  · rw [chosen.memory]
    exact ArrayMemory.read_programByte_zero _ _
  · rw [head]
    exact List.mem_append_right _ (List.mem_singleton_self _)
  · exact (chosen.dirty rfl).imp_left And.left

/-- R139: a header program. -/
theorem Part.header_completed {h : TakeHeader} (job : p.array.operation = some (.job (.writeHeader bay h) w) ∨
      p.array.operation = some (.job (.recorderHeader bay h) w)) :
    let t := p.programCompleted
    t.array.memory = p.array.memory.program (bay.val * 65536 + 16) h.bytes ∧
    (p.array.operation = some (.job (.writeHeader bay h) w) →
      p.Chosen t { p.array with memory := t.array.memory, operation := none }) ∧
    t = Part.choose { p with recorder := t.recorder, array := { p.array with
      memory := t.array.memory, directory := t.array.directory, operation := none } } := by
  intro t
  have memory (j : Job) (header : j = .writeHeader bay h ∨ j = .recorderHeader bay h) :
      p.array.programmed j = p.array.memory.program (bay.val * 65536 + 16) h.bytes := by
    rcases header with rfl | rfl
    all_goals
      unfold TakeArray.programmed
      dsimp only
      rw [pageAddress_zero]
  rcases job with job | job
  · have completed : t = Part.choose { p with array := { p.array with
        memory := p.array.memory.program (bay.val * 65536 + 16) h.bytes, operation := none } } := by
      refine (Part.programCompleted_eq job rfl).trans ?_
      rw [memory _ (.inl rfl)]
      rfl
    have chosen : p.Chosen t _ := ⟨p.lane, completed⟩
    have memory : t.array.memory = p.array.memory.program (bay.val * 65536 + 16) h.bytes := chosen.memory
    have directory : t.array.directory = p.array.directory := chosen.directory
    have recorder : t.recorder = p.recorder := by rw [completed, (Part.choose_work _).recorder]
    refine ⟨memory, fun _ => ⟨p.lane, ?_⟩, ?_⟩
    · rw [memory]
      exact completed
    · rw [memory, directory, recorder]
      exact completed
  · obtain ⟨d, x, finished, -⟩ := Part.finishClosing_eq { p with array := { p.array with
      memory := p.array.memory.program (bay.val * 65536 + 16) h.bytes } }
    have completed : t = Part.choose { p with recorder := { p.recorder with state := x }, array := { p.array with
        memory := p.array.memory.program (bay.val * 65536 + 16) h.bytes, directory := d, operation := none } } := by
      refine (Part.programCompleted_eq job rfl).trans ?_
      have told : Part.finishProgram { p with array := { p.array with
          memory := p.array.memory.program (bay.val * 65536 + 16) h.bytes } } (.recorderHeader bay h) = _ := finished
      rw [memory _ (.inr rfl), told]
      rfl
    have work := Part.choose_work { p with recorder := { p.recorder with state := x }, array := { p.array with
      memory := p.array.memory.program (bay.val * 65536 + 16) h.bytes, directory := d, operation := none } }
    rw [← completed] at work
    refine ⟨work.memoryEq, fun other => ?_, ?_⟩
    · rw [job] at other
      exact nomatch other
    · rw [work.memoryEq, work.directory, work.recorder]
      exact completed

/-- R139: after every read and program the controller chooses. -/
theorem Part.job_completed {j : Job} (job : p.array.operation = some (.job j w)) :
    ∃ x : Part, x.array.operation = none ∧ (if j.isRead then p.readCompleted else p.programCompleted) = x.choose := by
  by_cases read : j.isRead = true
  · refine ⟨p.clearOperation.finishRead j w, (Part.finishRead_reads _ _ _).array.none_iff.2 rfl, ?_⟩
    unfold Part.readCompleted
    rw [if_pos read, job]
    exact if_pos read
  · rw [if_neg read]
    exact ⟨_, rfl, Part.programCompleted_eq job (by simpa using read)⟩

/-- R141: a bay erase. -/
theorem Part.erase_completed (wf : p.array.memory.wf = true) (erase : p.array.operation = some (.erase bay)) :
    let t := p.eraseCompleted
    (p.recorder.state ≠ .stalled ∨ p.recorder.reserved ≠ none ∨
        (∀ f, p.recorder.filling = some f → (((p.recorder.buffer f).page.getD 0) + 1) % 255 ≠ 0) →
      t.array.erased = p.array.erased ++ [bay] ∧
      p.Chosen t { p.array with memory := t.array.memory, operation := none, erased := p.array.erased ++ [bay] }) ∧
    t.array.memory.read (bay.val * 65536) = 0xA5#8 ∧
    (∀ x, bay.val * 65536 < x → x < bay.val * 65536 + 65536 → t.array.memory.read x = 0xFF#8) ∧
    ∀ x, x < bay.val * 65536 ∨ bay.val * 65536 + 65536 ≤ x → t.array.memory.read x = p.array.memory.read x := by
  intro t
  have completed : t = (Part.bayForStall { p with array := p.array.bayErased bay }).choose := Part.eraseCompleted_eq erase
  have memory : t.array.memory = p.array.memory.eraseBay bay := by
    rw [completed, (Part.choose_work _).memoryEq, (Part.bayForStall_work _).memoryEq]
    rfl
  have read (x : Nat) := ArrayMemory.read_eraseBay wf bay x
  simp only [pageAddress_zero] at read
  refine ⟨fun beside => ?_, ?_, fun x low high => ?_, fun x outside => ?_⟩
  · rw [Part.bayForStall_same (p := { p with array := p.array.bayErased bay }) beside] at completed
    have chosen : p.Chosen t (p.array.bayErased bay) := ⟨p.lane, completed⟩
    refine ⟨chosen.erased, ?_⟩
    rw [memory]
    exact chosen
  · rw [memory, read, if_pos rfl]
  · rw [memory, read, if_neg (by omega), if_pos (by omega)]
    rfl
  · rw [memory, read, if_neg (by omega), if_neg (by omega)]

end

end Sys2Proof.Machine
end

section
/-! SETTLED. The reads of the start-up scan (R142 to R144), and with them the completions of the array. -/

namespace Sys2Proof.Machine

/-! ### A header page -/

theorem Scan.header_class (sc : Scan) (bay : Bay) (page : List Byte) :
    (byteAt page 0 ≠ 0xA5#8 → (sc.header bay page).erased = sc.erased ∧ (sc.header bay page).owned = sc.owned) ∧
    (byteAt page 0 = 0xA5#8 → (page.drop 1).all (fun b => b == 0xFF#8) = true →
      (sc.header bay page).erased = sc.erased ++ [bay] ∧ (sc.header bay page).owned = sc.owned) ∧
    (byteAt page 0 = 0xA5#8 → (page.drop 1).all (fun b => b == 0xFF#8) = false →
      (sc.header bay page).erased = sc.erased ∧
      (byteAt page 64 ≠ 0xFF#8 ∨ headerOfPage page = none → (sc.header bay page).owned = sc.owned) ∧
      ∀ h, byteAt page 64 = 0xFF#8 → headerOfPage page = some h →
        (sc.header bay page).owned = sc.owned ++ [⟨bay, h, decide (byteAt page 65 ≠ 0xFF#8)⟩]) := by
  have blankEq : (page.drop 1).all (fun b => b == 0xFF#8) = (page.drop 1).all (fun b => b == erasedByte) := rfl
  rw [blankEq]
  unfold Scan.header classOfPage
  dsimp only
  refine ⟨fun other => ?_, fun marked blank => ?_, fun marked written => ?_⟩
  · rw [if_pos other]
    exact ⟨rfl, rfl⟩
  · rw [if_neg (Classical.not_not.2 marked), if_pos blank]
    exact ⟨rfl, rfl⟩
  · rw [if_neg (Classical.not_not.2 marked), if_neg (by rw [written]; exact nofun)]
    by_cases retired : byteAt page 64 = erasedByte
    · rw [if_neg (Classical.not_not.2 retired)]
      cases header : headerOfPage page with
      | none => exact ⟨rfl, fun _ => rfl, fun h _ eq => nomatch eq⟩
      | some h =>
        refine ⟨rfl, fun other => ?_, fun h' _ eq => ?_⟩
        · rcases other with other | none
          · exact absurd retired other
          · exact nomatch none
        · cases eq
          rfl
    · rw [if_pos retired]
      exact ⟨rfl, fun _ => rfl, fun h eq => absurd eq retired⟩

theorem Scan.header_maxSerial (sc : Scan) (bay : Bay) (page : List Byte) :
    (headerOfPage page = none → (sc.header bay page).maxSerial = sc.maxSerial) ∧
    ∀ h, headerOfPage page = some h → (sc.header bay page).maxSerial = some (match sc.maxSerial with
      | none => h.info.serial
      | some x => if x.toNat < h.info.serial.toNat then h.info.serial else x) := by
  have serial : (sc.header bay page).maxSerial = maxSerialOf sc.maxSerial (headerOfPage page) := by
    unfold Scan.header
    dsimp only
    split <;> rfl
  rw [serial]
  unfold maxSerialOf
  constructor
  · intro none
    rw [none]
    cases sc.maxSerial <;> rfl
  · intro h some
    rw [some]
    cases sc.maxSerial <;> rfl

/-! ### The chains -/

theorem find_of_find {α : Type} {p q : α → Bool} {l : List α} {x : α} (found : l.find? p = some x) (holds : q x = true)
    (stronger : ∀ y, q y = true → p y = true) : l.find? q = some x := by
  obtain ⟨-, before, after, eq, none⟩ := List.find?_eq_some_iff_append.1 found
  refine List.find?_eq_some_iff_append.2 ⟨holds, before, after, eq, fun y member => ?_⟩
  have not := none y member
  simp only [Bool.not_eq_true', Bool.eq_false_iff] at not ⊢
  exact fun hq => not (stronger y hq)

theorem chainFrom_end {owned : List ScannedBay} {h : TakeHeader} {fuel index : Nat}
    (short : (chainFrom owned h fuel index).length < fuel) :
    owned.find? (fun b => decide (b.header = { h with chain := index + (chainFrom owned h fuel index).length })) = none := by
  induction fuel generalizing index with
  | zero => exact absurd short (Nat.not_lt_zero _)
  | succ fuel ih =>
    unfold chainFrom at short ⊢
    split at short
    · next none => exact none
    · next c found =>
      have rest := ih (Nat.lt_of_succ_lt_succ short)
      rw [List.length_cons, Nat.add_comm _ 1, ← Nat.add_assoc]
      exact rest

/-- The bay that leads is the first of its take's chain. -/
theorem Leads.head {owned : List ScannedBay} {i : DirIx} {b : ScannedBay} (leads : Leads owned i b) :
    (chainFrom owned b.header 512 0).head? = some b.bay := by
  have found : owned.find? (fun c => decide (c.header.info.serial = b.header.info.serial) && decide (c.header.chain = 0)) =
      some b := leads.2
  have chain : b.header.chain = 0 := by
    have holds := List.find?_some found
    simp only [Bool.and_eq_true, decide_eq_true_eq] at holds
    exact holds.2
  have same : { b.header with chain := 0 } = b.header := by rw [← chain]
  have first : owned.find? (fun c => decide (c.header = b.header)) = some b := by
    refine find_of_find found (decide_eq_true rfl) fun c eq => ?_
    rw [of_decide_eq_true eq, chain]
    simp
  unfold chainFrom
  rw [same, first]
  rfl

/-! ### The slots that hold a take -/

/-- The slots that are not Empty, ascending. -/
def TakeArray.filledSlots (t : TakeArray) : List DirIx :=
  (List.finRange 64).filter fun i => decide (t.directory[i].state ≠ .empty)

theorem TakeArray.mem_filledSlots {t : TakeArray} {i : DirIx} :
    i ∈ t.filledSlots ↔ t.directory[i].state ≠ .empty := by
  simp [TakeArray.filledSlots]

theorem TakeArray.filledSlots_sorted (t : TakeArray) : t.filledSlots.Pairwise fun i j => i.val < j.val :=
  (List.pairwise_lt_finRange 64).filter _

/-- The lowest slot that is not Empty, and the others. -/
theorem TakeArray.filledSlots_lowest {t : TakeArray} {i : DirIx} (filled : t.directory[i].state ≠ .empty)
    (lowest : ∀ j : DirIx, j.val < i.val → t.directory[j].state = .empty) :
    ∃ rest, t.filledSlots = i :: rest ∧ rest.Pairwise (fun x y => x.val < y.val) ∧
      ∀ j : DirIx, j ∈ rest ↔ i.val < j.val ∧ t.directory[j].state ≠ .empty := by
  have sorted := t.filledSlots_sorted
  have member := TakeArray.mem_filledSlots.2 filled
  cases eq : t.filledSlots with
  | nil => rw [eq] at member; exact absurd member List.not_mem_nil
  | cons k rest =>
    rw [eq] at sorted member
    obtain ⟨above, sortedRest⟩ := List.pairwise_cons.1 sorted
    have first : k = i := by
      rcases List.mem_cons.1 member with same | later
      · exact same.symm
      · have inList : k ∈ t.filledSlots := eq ▸ List.mem_cons_self
        exact absurd (lowest k (above i later)) (TakeArray.mem_filledSlots.1 inList)
    subst first
    refine ⟨rest, rfl, sortedRest, fun j => ⟨fun inRest => ⟨above j inRest, ?_⟩, fun ⟨lt, filled⟩ => ?_⟩⟩
    · exact TakeArray.mem_filledSlots.1 (eq ▸ List.mem_cons_of_mem _ inRest)
    · have inList := TakeArray.mem_filledSlots.2 filled
      rw [eq] at inList
      rcases List.mem_cons.1 inList with same | later
      · rw [same] at lt
        exact absurd lt (Nat.lt_irrefl _)
      · exact later

/-! ### The end of the scan -/

/-- R144: what the part is when the scan has ended. -/
def Part.ScanEnded (p : Part) (erased : List Bay) (max : Option (BitVec 32)) (t : Part) : Prop :=
  t.array.scan = none ∧ t.array.scanComplete = true ∧ t.array.erased = erased ∧
  t.array.serial = (match max with
    | some x => x + 1
    | none => 0) ∧
  (∃ dirty : List Bay, dirty.Pairwise (fun x y => x.val < y.val) ∧
    (∀ b : Bay, b ∈ dirty ↔ b ∉ erased ∧ ∀ i : DirIx, b ∉ t.array.directory[i].bays) ∧
    t = Part.choose { p with array := { p.array with
      directory := t.array.directory, erased := erased, dirty := dirty
      serial := t.array.serial, scanComplete := true, scan := none } }) ∧
  (p.array.operation = none → p.array.suspended = none → ∀ b : Bay,
    (b ∈ t.array.dirty ∨ t.array.operation = some (.erase b)) ↔
      b ∉ erased ∧ ∀ i : DirIx, b ∉ t.array.directory[i].bays)

theorem TakeArray.not_mem_held {t : TakeArray} {b : Bay} : b ∉ t.held ↔ ∀ i : DirIx, b ∉ t.directory[i].bays := by
  unfold TakeArray.held
  simp

theorem TakeArray.scanDone_eq (t : TakeArray) (sc : Scan) : t.scanDone sc = { t with
    erased := sc.erased, dirty := (t.scanDone sc).dirty, serial := (t.scanDone sc).serial
    scanComplete := true, scan := none } := by
  unfold TakeArray.scanDone
  dsimp only

theorem Part.scanDone_ended (p : Part) (d : Vector DirectorySlot 64) (sc : Scan) :
    p.ScanEnded sc.erased sc.maxSerial
      (Part.choose { p with array := TakeArray.scanDone { p.array with directory := d } sc }) := by
  have work := Part.choose_work { p with array := TakeArray.scanDone { p.array with directory := d } sc }
  have directory : (Part.choose { p with array := TakeArray.scanDone { p.array with directory := d } sc }).array.directory =
      d := work.directory
  have mem (b : Bay) : b ∈ (TakeArray.scanDone { p.array with directory := d } sc).dirty ↔
      b ∉ sc.erased ∧ ∀ i : DirIx, b ∉ d[i].bays := by
    rw [TakeArray.mem_scanDone_dirty, TakeArray.not_mem_held]
  refine ⟨work.scan, work.scanComplete, work.erased, work.serial,
    ⟨(TakeArray.scanDone { p.array with directory := d } sc).dirty, ?_, fun b => ?_, ?_⟩, fun idle none b => ?_⟩
  · rw [TakeArray.scanDone_dirty]
    exact (List.pairwise_lt_finRange 512).filter _
  · rw [directory]
    exact mem b
  · rw [directory, work.serial]
    exact congrArg (fun u => Part.choose { p with array := u }) (TakeArray.scanDone_eq _ sc)
  · rw [directory]
    have chosen : p.Chosen (Part.choose { p with array := TakeArray.scanDone { p.array with directory := d } sc })
        (TakeArray.scanDone { p.array with directory := d } sc) := ⟨p.lane, rfl⟩
    rcases chosen.dirty idle with ⟨same, noErase⟩ | ⟨head, popped, erase⟩
    · rw [same, mem]
      exact or_iff_left (noErase none b)
    · rw [← mem, popped, List.mem_cons, erase]
      simp only [Option.some.injEq, Operation.erase.injEq]
      exact or_comm.trans (or_congr eq_comm Iff.rfl)

end Sys2Proof.Machine
end

section
/-! SETTLED. What a read of the scan leaves (R142 to R144), and the completions of the array together. -/

namespace Sys2Proof.Machine

/-! ### The directory that the headers give -/

/-- R143: the slot of the take that leads, or one at reset where none does. -/
theorem Scan.directory_holder (sc : Scan) (i : DirIx) :
    (sc.directory[i] = DirectorySlot.reset ∧ ∀ b, ¬ (b ∈ sc.owned ∧ Leads sc.owned i b)) ∨
    ∃ b, (b ∈ sc.owned ∧ Leads sc.owned i b) ∧
      (∀ c, c ∈ sc.owned ∧ Leads sc.owned i c → c.header.info.serial.toNat ≤ b.header.info.serial.toNat) ∧
      sc.directory[i] = scannedSlot sc.owned b := by
  have best := slotHolder_best sc.owned i
  cases holder : slotHolder sc.owned i with
  | none =>
    rw [holder] at best
    refine .inl ⟨?_, fun b ⟨member, leads⟩ => best b member leads⟩
    rw [Scan.directory_get, holder]
  | some b =>
    rw [holder] at best
    obtain ⟨member, leads, largest⟩ := best
    refine .inr ⟨b, ⟨member, leads⟩, fun c ⟨memberC, leadsC⟩ => largest c memberC leadsC, ?_⟩
    rw [Scan.directory_get, holder]

/-- R143: a chain runs from index 0 up to the first index that no owned bay of its header has. -/
theorem chainFrom_zero (owned : List ScannedBay) (h : TakeHeader) :
    (∀ k bay, (chainFrom owned h 512 0)[k]? = some bay →
      ∃ c, owned.find? (fun b => decide (b.header = { h with chain := k })) = some c ∧ c.bay = bay) ∧
    ((chainFrom owned h 512 0).length < 512 →
      owned.find? (fun b => decide (b.header = { h with chain := (chainFrom owned h 512 0).length })) = none) := by
  constructor
  · intro k bay there
    have found := chainFrom_get there
    rwa [Nat.zero_add] at found
  · intro short
    have found := chainFrom_end short
    rwa [Nat.zero_add] at found

/-! ### One read of the scan -/

theorem Part.scanReadCompleted_eq {p : Part} {sc : Scan} (scan : p.array.scan = some sc) :
    p.scanReadCompleted = Part.choose { p with array := p.array.scanRead sc } := by
  unfold Part.scanReadCompleted
  rw [scan]

/-- The pages of the next take, or the end of the scan, with the directory as it then is. -/
theorem Part.scanNext_spec (p : Part) (d : Vector DirectorySlot 64) (sc : Scan) (rest : List DirIx) :
    let t := Part.choose { p with array := TakeArray.scanNext { p.array with directory := d } sc rest }
    t.array.directory = d ∧ t.array.memory = p.array.memory ∧
    (∀ next more, rest = next :: more → t.array.scan = some { sc with phase := .pages next 0 false more }) ∧
    (rest = [] → p.ScanEnded sc.erased sc.maxSerial t) := by
  intro t
  have work := Part.choose_work { p with array := TakeArray.scanNext { p.array with directory := d } sc rest }
  have directory : t.array.directory = (TakeArray.scanNext { p.array with directory := d } sc rest).directory :=
    work.directory
  have memory : t.array.memory = (TakeArray.scanNext { p.array with directory := d } sc rest).memory := work.memoryEq
  have scan : t.array.scan = (TakeArray.scanNext { p.array with directory := d } sc rest).scan := work.scan
  cases rest with
  | nil => exact ⟨directory, memory, fun next more eq => (nomatch eq), fun _ => p.scanDone_ended d sc⟩
  | cons next more =>
    refine ⟨directory, memory, fun next' more' eq => ?_, fun eq => (nomatch eq)⟩
    cases eq
    exact scan

section
variable {p : Part} {sc : Scan}

theorem TakeArray.scanRead_header {t : TakeArray} {n : Bay} (phase : sc.phase = .headers n.val) :
    t.scanRead sc = if n.val + 1 = 512 then t.scanHeadersDone (sc.header n (t.memory.readPage n 0))
      else { t with scan := some { sc.header n (t.memory.readPage n 0) with phase := .headers (n.val + 1) } } := by
  unfold TakeArray.scanRead
  rw [phase]
  exact dif_pos n.isLt

/-- R142: the read of a header page below bay 511. -/
theorem Part.headerRead_more {n : Bay} (scan : p.array.scan = some sc) (phase : sc.phase = .headers n.val)
    (more : n.val < 511) : p.scanReadCompleted = { p with array := { p.array with
      scan := some { sc.header n (p.array.memory.readPage n 0) with phase := .headers (n.val + 1) } } } := by
  rw [Part.scanReadCompleted_eq scan, TakeArray.scanRead_header phase, if_neg (by omega),
    Part.choose_rests (.inr (by exact nofun))]

/-- R143: the read of the last header page fills the directory. -/
theorem Part.headerRead_last {n : Bay} (scan : p.array.scan = some sc) (phase : sc.phase = .headers n.val)
    (last : n.val = 511) : p.scanReadCompleted = Part.choose { p with
      array := p.array.scanHeadersDone (sc.header n (p.array.memory.readPage n 0)) } := by
  have final : n.val + 1 = 512 := congrArg (· + 1) last
  rw [Part.scanReadCompleted_eq scan, TakeArray.scanRead_header phase, if_pos final]

theorem TakeArray.scanHeadersDone_eq (t : TakeArray) (sc : Scan) : t.scanHeadersDone sc =
    TakeArray.scanNext { t with directory := sc.directory } sc
      (TakeArray.filledSlots { t with directory := sc.directory }) := by
  unfold TakeArray.scanHeadersDone TakeArray.filledSlots
  dsimp only

/-- R143: the takes found and the first of their pages to read. -/
theorem Part.headersDone_spec (p : Part) (sc : Scan) :
    let t := Part.choose { p with array := p.array.scanHeadersDone sc }
    t.array.directory = sc.directory ∧ t.array.memory = p.array.memory ∧
    (∀ i : DirIx, t.array.directory[i].state ≠ .empty →
      (∀ j : DirIx, j.val < i.val → t.array.directory[j].state = .empty) →
      ∃ rest, t.array.scan = some { sc with phase := .pages i 0 false rest } ∧
        rest.Pairwise (fun x y => x.val < y.val) ∧
        ∀ j : DirIx, j ∈ rest ↔ i.val < j.val ∧ t.array.directory[j].state ≠ .empty) ∧
    ((∀ i : DirIx, t.array.directory[i].state = .empty) → p.ScanEnded sc.erased sc.maxSerial t) := by
  have spec := p.scanNext_spec sc.directory sc (TakeArray.filledSlots { p.array with directory := sc.directory })
  rw [TakeArray.scanHeadersDone_eq]
  dsimp only at spec ⊢
  generalize Part.choose _ = t at spec ⊢
  obtain ⟨directory, memory, next, ended⟩ := spec
  rw [directory]
  refine ⟨rfl, memory, fun i filled lowest => ?_, fun empty => ended ?_⟩
  · obtain ⟨rest, eq, sorted, mem⟩ := TakeArray.filledSlots_lowest
      (t := { p.array with directory := sc.directory }) filled lowest
    exact ⟨rest, next i rest eq, sorted, mem⟩
  · exact List.eq_nil_iff_forall_not_mem.2 fun i member => TakeArray.mem_filledSlots.1 member (empty i)

/-! ### A data page -/

/-- R144: the page of a slot's take that the scan reads is good, and has these entries. -/
def ArrayMemory.GoodPage (m : ArrayMemory) (d : DirectorySlot) (page : Nat) (es : List Entry) : Prop :=
  ∃ l, d.locate page = some l ∧ (m.readPage l.1 l.2).all (fun b => b == 0xFF#8) = false ∧
    pageCrcGood (m.readPage l.1 l.2) = true ∧
    parseEntries (Mask.size d.info.mask) (bytesAt (m.readPage l.1 l.2) 0 254) = some es

theorem goodEntries_iff {channels : Nat} {page : List Byte} {es : List Entry} :
    goodEntries channels page = some es ↔ page.all (fun b => b == 0xFF#8) = false ∧ pageCrcGood page = true ∧
      parseEntries channels (bytesAt page 0 254) = some es := by
  have blank : pageUnprogrammed page = page.all (fun b => b == 0xFF#8) := rfl
  unfold goodEntries
  rw [blank]
  split
  · next bad =>
    refine ⟨fun eq => (nomatch eq), fun ⟨written, crc, _⟩ => ?_⟩
    rw [written, crc] at bad
    exact absurd bad (by decide)
  · next good =>
    rw [not_or] at good
    obtain ⟨written, crc⟩ := good
    exact ⟨fun eq => ⟨by simpa using written, by simpa using crc, eq⟩, fun ⟨_, _, eq⟩ => eq⟩

/-- A slot with one good page more. -/
def DirectorySlot.withPage (d : DirectorySlot) (es : List Entry) : DirectorySlot :=
  { d.countIn es with dataPages := d.dataPages + 1 }

section
variable {i : DirIx} {page : Nat} {last : Bool} {rest : List DirIx} {es : List Entry}

theorem TakeArray.scanRead_good {t : TakeArray} (phase : sc.phase = .pages i page last rest)
    (good : t.memory.GoodPage t.directory[i] page es) : t.scanRead sc =
      if t.directory[i].bays.length * 255 ≤ page + 1 then
        (t.setSlot i ((t.directory[i].withPage es).scanned (hasEnd es))).scanNext sc rest
      else { t.setSlot i (t.directory[i].withPage es) with
        scan := some { sc with phase := .pages i (page + 1) (hasEnd es) rest } } := by
  obtain ⟨l, located, written, crc, parsed⟩ := good
  unfold TakeArray.scanRead
  rw [phase]
  dsimp only
  rw [located]
  dsimp only
  rw [goodEntries_iff.2 ⟨written, crc, parsed⟩]
  rfl

theorem TakeArray.scanRead_bad {t : TakeArray} (phase : sc.phase = .pages i page last rest)
    (bad : ∀ es, ¬ t.memory.GoodPage t.directory[i] page es) :
    t.scanRead sc = (t.setSlot i (t.directory[i].scanned last)).scanNext sc rest := by
  unfold TakeArray.scanRead
  rw [phase]
  dsimp only
  cases located : t.directory[i].locate page with
  | none => rfl
  | some l =>
    dsimp only
    cases entries : goodEntries (Mask.size t.directory[i].info.mask) (t.memory.readPage l.1 l.2) with
    | none => rfl
    | some es => exact absurd ⟨l, located, goodEntries_iff.1 entries⟩ (bad es)

/-- R144: a good page with pages of the chain after it. -/
theorem Part.pageRead_more (scan : p.array.scan = some sc) (phase : sc.phase = .pages i page last rest)
    (good : p.array.memory.GoodPage p.array.directory[i] page es)
    (more : page + 1 < p.array.directory[i].bays.length * 255) :
    p.scanReadCompleted = { p with array := { p.array with
      directory := p.array.directory.set i (p.array.directory[i].withPage es)
      scan := some { sc with phase := .pages i (page + 1) (hasEnd es) rest } } } := by
  rw [Part.scanReadCompleted_eq scan, TakeArray.scanRead_good phase good, if_neg (Nat.not_le.2 more),
    Part.choose_rests (.inr (by exact nofun))]
  rfl

/-- R144: the page that ends a take: the first that is not good, or the last of the chain. -/
theorem Part.pageRead_last {x : DirectorySlot} (scan : p.array.scan = some sc)
    (phase : sc.phase = .pages i page last rest)
    (ended : ((∀ es, ¬ p.array.memory.GoodPage p.array.directory[i] page es) ∧
        x = p.array.directory[i].scanned last) ∨
      ∃ es, p.array.memory.GoodPage p.array.directory[i] page es ∧
        p.array.directory[i].bays.length * 255 ≤ page + 1 ∧
        x = (p.array.directory[i].withPage es).scanned (hasEnd es)) :
    p.scanReadCompleted = Part.choose { p with
      array := TakeArray.scanNext { p.array with directory := p.array.directory.set i x } sc rest } := by
  rw [Part.scanReadCompleted_eq scan]
  rcases ended with ⟨bad, rfl⟩ | ⟨es, good, fits, rfl⟩
  · rw [TakeArray.scanRead_bad phase bad]
    rfl
  · rw [TakeArray.scanRead_good phase good, if_pos fits]
    rfl

end
end

/-- R143: the slot of the take with the largest serial of those that lead, as it stands in the statement. -/
theorem Scan.directory_take (sc : Scan) (i : DirIx) :
    let d := sc.directory[i]
    (d = DirectorySlot.reset ∧ ∀ b, ¬ (b ∈ sc.owned ∧ Leads sc.owned i b)) ∨
    ∃ b, (b ∈ sc.owned ∧ Leads sc.owned i b) ∧
      (∀ c, c ∈ sc.owned ∧ Leads sc.owned i c → c.header.info.serial.toNat ≤ b.header.info.serial.toNat) ∧
      d = { DirectorySlot.reset with
        state := .truncated, info := b.header.info, bays := d.bays, locked := b.lockSet, endReason := .scan } ∧
      d.bays.head? = some b.bay ∧
      (∀ k bay, d.bays[k]? = some bay →
        ∃ c, sc.owned.find? (fun c => decide (c.header = { b.header with chain := k })) = some c ∧ c.bay = bay) ∧
      (d.bays.length < 512 →
        sc.owned.find? (fun c => decide (c.header = { b.header with chain := d.bays.length })) = none) := by
  intro d
  rcases sc.directory_holder i with free | ⟨b, leads, largest, slot⟩
  · exact .inl free
  · have bays : d.bays = chainFrom sc.owned b.header 512 0 := congrArg DirectorySlot.bays slot
    obtain ⟨chain, chainEnd⟩ := chainFrom_zero sc.owned b.header
    refine .inr ⟨b, leads, largest, ?_, ?_⟩
    · rw [bays]
      exact slot
    · rw [bays]
      exact ⟨leads.2.head, chain, chainEnd⟩

/-- Settles O56: each clause is the rule of its completion, on the part that the command leaves. -/
theorem arrayCompletions : Obligations.ArrayCompletions := by
  unfold Obligations.ArrayCompletions
  intro s
  dsimp only
  refine ⟨fun n i k w job => ⟨_, rfl, Part.takeRead_completed job⟩,
    fun n i k es w x job there => ⟨_, rfl, Part.writeData_completed job there⟩,
    fun n i bay w job => ⟨_, rfl, Part.lock_completed job⟩,
    fun i bay w job => ⟨_, rfl, Part.retire_completed job⟩,
    fun bay h w job => ⟨_, rfl, Part.header_completed job⟩,
    fun j w job => ?_,
    fun bay wf erase => ⟨_, rfl, Part.erase_completed wf erase⟩,
    fun sc n scan phase => ?_,
    fun sc i page last rest scan phase => ⟨fun es good more => ?_, fun x ended => ?_⟩⟩
  · obtain ⟨x, idle, completed⟩ := Part.job_completed job
    refine ⟨x, idle, ?_⟩
    rw [← completed]
    cases j.isRead <;> rfl
  · obtain ⟨other, erased, owned⟩ := sc.header_class n (s.part.array.memory.readPage n 0)
    obtain ⟨noSerial, serial⟩ := sc.header_maxSerial n (s.part.array.memory.readPage n 0)
    refine ⟨_, _, _, s.part.scanReadCompleted, rfl, fun more => Part.headerRead_more scan phase more,
      ⟨other, erased, owned, noSerial, serial⟩, fun last => ?_⟩
    rw [Part.headerRead_last scan phase last]
    obtain ⟨directory, memory, next, ended⟩ :=
      s.part.headersDone_spec (sc.header n (s.part.array.memory.readPage n 0))
    refine ⟨memory, fun i => ?_, next, ended⟩
    rw [directory]
    exact Scan.directory_take _ i
  · exact congrArg (fun t : Part => Host.Outcome.next { s with part := t }) (Part.pageRead_more scan phase good more)
  · refine ⟨s.part.scanReadCompleted, rfl, ?_⟩
    rw [Part.pageRead_last scan phase ended]
    exact s.part.scanNext_spec (s.part.array.directory.set i x) sc rest

end Sys2Proof.Machine
end
